-- ==== Sys2Proof/Word.lean ====
section
/-! DEFINITION. The word types of the N2240: the byte of the rack bus and of the host port, and the 32-bit station clock. -/

namespace Sys2Proof

/-- A byte; bit 7 is the most significant (00_scope.md, Conventions). -/
abbrev Byte := BitVec 8

/-- A value of the station clock: a 32-bit count of microseconds (R161). -/
abbrev ClockTime := BitVec 32

/-- The deadline of a rendezvous: a count of milliseconds, 0–65535 (R45). -/
abbrev Deadline := BitVec 16

/-- A station number, 0–31 (R160). -/
abbrev StationNumber := BitVec 5

end Sys2Proof
end

