-- ==== Sys2Proof/Syntax.lean ====
section
/-! DEFINITION. The commands and events the station takes: one constructor for each row of spec/opcode_table.json, with the row's operands. -/

namespace Sys2Proof

/-- A byte of the rack bus with its two qualifiers, as sampled together on an offer (R2) or driven by a talker (R3). -/
structure BusByte where
  /-- D0–D7 -/
  data : Byte
  /-- KIND asserted: a control byte -/
  kind : Bool
  /-- LAST asserted: the byte ends the frame -/
  last : Bool
  deriving DecidableEq, Repr

/-- The kinds of DATA access of the host port (R165). -/
inductive DataAccess where
  | write (b : Byte)
  | read
  deriving DecidableEq, Repr

/-- The two kinds of break, by the length of the pulse (R16). -/
inductive BreakKind where
  | frame
  | clear
  deriving DecidableEq, Repr

/-- The commands, in the order of the table. -/
inductive Instr where
  /-- COMMAND_BYTE_WRITE (R168): a DATA write in COMMAND -/
  | commandByteWrite (b : Byte)
  /-- PARAMETER_BYTE_WRITE (R169): a DATA write in PARAM -/
  | parameterByteWrite (b : Byte)
  /-- PAYLOAD_BYTE_WRITE (R171): a DATA write in DATA_IN -/
  | payloadByteWrite (b : Byte)
  /-- BUSY_END (R170) -/
  | busyEnd
  /-- RESULT_BYTE_READ (R172): a DATA read in RESULT -/
  | resultByteRead
  /-- PAYLOAD_BYTE_READ (R173): a DATA read in DATA_OUT -/
  | payloadByteRead
  /-- ABANDON (R174): a write to PHASE, whatever byte it carries -/
  | abandon (b : Byte)
  /-- PROTOCOL_ERROR (R175): a DATA access in a phase that does not take it -/
  | protocolError (a : DataAccess)
  /-- CONFIGURE (R157) with its eight parameter bytes (R179) -/
  | configure (stall silence retry reserve notify age unicast broadcast : Byte)
  /-- SET_GROUP (R159) -/
  | setGroup (group mode : Byte)
  /-- JOIN (R149) -/
  | join
  /-- LEAVE (R153) -/
  | leave
  /-- SEND (R102) with its six parameter bytes (R180) -/
  | send (tag cls destination flags lengthHigh lengthLow : Byte)
  /-- WITHDRAW (R105) -/
  | withdraw (tag : Byte)
  /-- REAP (R107) -/
  | reap
  /-- FETCH (R138) -/
  | fetch
  /-- DISCARD (R140) -/
  | discard
  /-- OPEN (R57) with its four parameter bytes (R182) -/
  | openRendezvous (group tag deadlineHigh deadlineLow : Byte)
  /-- ARM (R63) -/
  | arm
  /-- CANCEL (R69) -/
  | cancel
  /-- OUTCOME (R86) -/
  | outcome
  /-- CAUSES (R190) -/
  | causes
  /-- ACKNOWLEDGE (R188) -/
  | acknowledge (causeByte : Byte)
  /-- SET_MASK (R188) -/
  | setMask (causeByte : Byte)
  /-- SNAPSHOT (R193) -/
  | snapshot (flags : Byte)
  /-- SOFT_RESET (R163) -/
  | softReset
  /-- ARM_PIN_EDGE (R64) -/
  | armPinEdge
  /-- RESET_ASSERT (R162) -/
  | resetAssert
  /-- RESET_RELEASE (R162); the operand is the level of SN0–SN4 (R160) -/
  | resetRelease (straps : StationNumber)
  /-- OWN_ASSERTION_SENSED (R33) -/
  | ownAssertionSensed
  /-- TAKE (R9): OFFER sensed asserted at a participant -/
  | take (b : BusByte)
  /-- OBSERVE (R40): OFFER sensed asserted at a station that does not take the byte -/
  | observe (b : BusByte)
  /-- OFFER_RELEASE_SENSED (R10) -/
  | offerReleaseSensed
  /-- TALKER_READY_SENSED (R7) -/
  | talkerReadySensed
  /-- OFFER_ASSERT (R3) -/
  | offerAssert
  /-- PEND_RELEASE_SENSED (R7) -/
  | pendReleaseSensed
  /-- NO_LISTENER (R8) -/
  | noListener
  /-- COMPLETION_WINDOW_END (R11) -/
  | completionWindowEnd
  /-- OWN_HOLD_END (R11) -/
  | ownHoldEnd
  /-- OWN_RELEASE_SENSED (R12); the operand is the level of REQ at that moment -/
  | ownReleaseSensed (req : Bool)
  /-- STALL_TIMER_EXPIRY (R14) -/
  | stallTimerExpiry
  /-- SILENCE_TIMER_EXPIRY (R15) -/
  | silenceTimerExpiry
  /-- BREAK_GUARD_END (R16) -/
  | breakGuardEnd
  /-- BREAK_PULSE_END (R16); the operand says which of the station's own pulses ends -/
  | breakPulseEnd (k : BreakKind)
  /-- BREAK_EDGE (R17) -/
  | breakEdge
  /-- CLEAR_BREAK_CLASSIFICATION (R18) -/
  | clearBreakClassification
  /-- BRK_RELEASE (R19); the operands are the levels of OWN and REQ at that moment -/
  | brkRelease (own req : Bool)
  /-- READBACK_COMPARE (R51); the operand is what the ten lines show -/
  | readbackCompare (b : BusByte)
  /-- BUS_IDLE_SENSED (R21) -/
  | busIdleSensed
  /-- REQ_SENSED (R22) -/
  | reqSensed
  /-- BID_LINE_CHANGE (R25); the operand is what D0–D7 show -/
  | bidLineChange (d : Byte)
  /-- ARBITRATION_DECISION (R26); the operand is the sample of D0–D7 -/
  | arbitrationDecision (d : Byte)
  /-- WON_HOLD_END (R26) -/
  | wonHoldEnd
  /-- ROUND_GAP_EXPIRY (R30) -/
  | roundGapExpiry
  /-- TRG_RELEASE_SENSED (R65, R67) -/
  | trgReleaseSensed
  /-- FIRE_DELAY_END (R65) -/
  | fireDelayEnd
  /-- FIRE_PULSE_END (R56) -/
  | firePulseEnd
  /-- CLEAR_BREAK_DELAY_END (R68) -/
  | clearBreakDelayEnd
  /-- DEADLINE_EXPIRY (R76) -/
  | deadlineExpiry
  /-- AGED_FLAG_SET (R143); the operand is the record's place in the queue, 0 at the head -/
  | agedFlagSet (place : Nat)
  /-- PARTICIPATION_BEGIN (R150); the operands are the levels of REQ and TRG at that moment -/
  | participationBegin (req trg : Bool)
  /-- LEFT (R155) -/
  | left
  /-- JOIN_ABANDONED (R154) -/
  | joinAbandoned
  /-- LOSS_OF_POWER (R83) -/
  | lossOfPower
  deriving DecidableEq, Repr

end Sys2Proof
end

