-- ==== Sys2Proof/Decode.lean ====
section
/-! DEFINITION. What a word of the opcode table spells. -/

namespace Sys2Proof

/-- The rows of spec/opcode_table.json are operations and events; none of them is given bits, so no word spells one (log 33). -/
def decodeTableWord (_nbits _w : Nat) : Option Instr := none

end Sys2Proof
end

