-- ==== Sys2Proof/Config.lean ====
section
/-! DEFINITION. What the part fixes: table sizes, times counted in periods of the 20 MHz reference clock, and the one free value the spec leaves open. -/

namespace Sys2Proof.Config

/-- Bytes in a block of packet memory (R87). -/
abbrev blockBytes : Nat := 64
/-- Blocks of packet memory (R87). -/
abbrev blockCount : Nat := 128
/-- Largest expanded length of a DATA payload (R43, R102). -/
abbrev maxPayload : Nat := 1024
/-- Places of the record queue (R124). -/
abbrev recordSlots : Nat := 32
/-- Places of the outcome queue (R85). -/
abbrev outcomePlaces : Nat := 4
/-- Largest whole run piece (R42, R49). -/
abbrev longestRun : Nat := 66

/-! Times, in periods of the reference clock: 20 MHz, so one period is 50 ns (01, section 1.2). -/

/-- Periods in one microsecond (R161). -/
abbrev periodsPerMicrosecond : Nat := 20
/-- Offer set-up, 100 ns (R3). -/
abbrev offerSetUp : Nat := 2
/-- Completion window, 100 ns (R11). -/
abbrev completionWindow : Nat := 2
/-- OWN hold after the final withdrawal, 200 ns (R11). -/
abbrev ownHold : Nat := 4
/-- Break guard, 200 ns (R16). -/
abbrev breakGuard : Nat := 4
/-- Frame break pulse, 2 µs (R16). -/
abbrev framePulse : Nat := 40
/-- Clear break pulse, 10 µs (R16). -/
abbrev clearPulse : Nat := 200
/-- Break classification time, 5 µs (R18). -/
abbrev classification : Nat := 100
/-- Settle interval of an arbitration, 1 µs from the opening of the window (R26). -/
abbrev settle : Nat := 20
/-- End of the winner's hold: 100 ns after the decision (R26). -/
abbrev wonHold : Nat := 22
/-- Round gap, 2 µs (R30). -/
abbrev roundGap : Nat := 40
/-- Wait between a sensed TRG release and the fire, 200 ns (R65). -/
abbrev fireDelay : Nat := 4
/-- FIRE pulse, 1 µs (R65). -/
abbrev firePulse : Nat := 20
/-- Delay of a clear break after a sensed TRG release, 300 ns (R68). -/
abbrev clearBreakDelay : Nat := 6
/-- Longest BUSY of a command other than SOFT RESET, 4 µs (R170). -/
abbrev busyBound : Nat := 80
/-- One unit of the stall limit, 10 µs (R14). -/
abbrev stallUnit : Nat := 200
/-- One unit of the silence limit, 100 µs (R15). -/
abbrev silenceUnit : Nat := 2000
/-- One millisecond of a deadline (R75). -/
abbrev deadlineUnit : Nat := 20000

/-- FREE VALUE (log 4). Which of several events that fall due in one clock period is taken first. The spec gives the result of each order (R92, R106, R195) and no rule for the choice. -/
opaque tieOrder : Nat → Nat

end Sys2Proof.Config
end

