-- ==== Sys2Proof/Machine/State.lean ====
section
/-! DEFINITION. The state of one N2240 station, block by block (00_scope.md, "Block diagram in words"), as plain data, with its values after power-on reset. -/

namespace Sys2Proof.Machine

open Sys2Proof

/-! ### Power -/

/-- Whether the part runs (R162, R83). -/
inductive PowerState where
  /-- supplied, with RESET# high -/
  | running
  /-- supplied, with RESET# held low (R162) -/
  | held
  /-- without supply (R83) -/
  | off
  deriving DecidableEq, Repr

/-! ### Line interface -/

/-- One bit for each of the sixteen lines of the rack bus (section 1.1): in a drive state, true means the station drives the line; in a sense state, that it senses the line asserted. -/
structure Lines where
  data : Byte
  kind : Bool
  last : Bool
  offer : Bool
  wait : Bool
  pend : Bool
  req : Bool
  own : Bool
  brk : Bool
  trg : Bool
  deriving DecidableEq, Repr

/-- No line driven, or every line released. -/
def Lines.released : Lines :=
  { data := 0, kind := false, last := false, offer := false, wait := false, pend := false,
    req := false, own := false, brk := false, trg := false }

/-- Why a station is to begin a frame break (section 1.7). -/
inductive FrameBreakReason where
  | stall | silence | clash | duplicate
  deriving DecidableEq, Repr

/-- The measurement of the assertion of BRK in progress (R18). -/
inductive BreakMeasure where
  /-- no assertion -/
  | idle
  /-- asserted, not yet classified -/
  | timing (ticks : Nat)
  /-- classified a clear break, still asserted -/
  | clear
  deriving DecidableEq, Repr

/-- The line interface (R1, R2, R16, R18, R68). A timer is none while it is stopped. -/
structure LineInterface where
  drive : Lines
  sense : Lines
  /-- the byte sampled on the latest offer (R2) -/
  observed : Option BusByte
  /-- the station's own 2 µs pulse (R16) -/
  framePulse : Option Nat
  /-- the station's own 10 µs pulse (R16) -/
  clearPulse : Option Nat
  measure : BreakMeasure
  /-- since the sensed withdrawal of a LAST byte, up to 200 ns (R16) -/
  guard : Option Nat
  /-- reasons for a frame break held back by the guard (R16) -/
  heldFrame : List FrameBreakReason
  /-- a clear break held back by the guard (R16) -/
  heldClear : Bool
  /-- since the sensed release of TRG, up to 300 ns (R68) -/
  trgDelay : Option Nat
  /-- a clear break held back by the delay of R68 -/
  delayedClear : Bool
  deriving DecidableEq, Repr

/-- The line interface after power-on reset, and in OFFLINE and FAULTED (R1, R2, R18). -/
def LineInterface.quiet : LineInterface :=
  { drive := Lines.released, sense := Lines.released, observed := none, framePulse := none,
    clearPulse := none, measure := .idle, guard := none, heldFrame := [], heldClear := false,
    trgDelay := none, delayedClear := false }

/-! ### Handshake engine -/

/-- Phases of a participant (R4). -/
inductive ParticipantPhase where
  | ready | taken | preparing | holding
  deriving DecidableEq, Repr

/-- Phases of a talker (R4). -/
inductive TalkerPhase where
  | awaitReady | offered | closing
  deriving DecidableEq, Repr

/-- The role for the byte in progress (R4). -/
inductive Role where
  | none
  | participant (p : ParticipantPhase)
  | bystander
  | talker (p : TalkerPhase)
  deriving DecidableEq, Repr

/-- Position within the current frame (R33). -/
inductive Position where
  | none | address | source | type | payload | afterMarker
  deriving DecidableEq, Repr

/-- The one-byte holding latch (R9), with the position of the frame at which the byte was taken; R10 decides readiness by it. -/
structure Latch where
  byte : BusByte
  position : Position
  deriving DecidableEq, Repr

/-- The handshake engine (R4, R9, R11, R14, R15). -/
structure Handshake where
  role : Role
  latch : Option Latch
  stall : Option Nat
  silence : Option Nat
  /-- the talker's set-up of the byte to be offered (R3) -/
  setUp : Option Nat
  /-- since the withdrawal of the LAST byte: completion window, then OWN hold (R11) -/
  window : Option Nat
  /-- the talker is in CLOSING with its frame complete (R11) -/
  complete : Bool
  /-- the station was participating at the break edge and returns at the release of BRK (R19) -/
  rejoin : Bool
  deriving DecidableEq, Repr

/-- The handshake engine after power-on reset, and in OFFLINE and FAULTED (R4, R14, R15). -/
def Handshake.idle : Handshake :=
  { role := .none, latch := none, stall := none, silence := none, setUp := none, window := none,
    complete := false, rejoin := false }

/-! ### Arbiter -/

/-- Phases of the arbiter (R20). -/
inductive ArbiterPhase where
  | off | standby | bidding | won | owner | outside
  deriving DecidableEq, Repr

/-- The arbiter (R20). -/
structure Arbiter where
  phase : ArbiterPhase
  bid : Option Byte
  settle : Option Nat
  roundFlag : Bool
  roundGap : Option Nat
  deriving DecidableEq, Repr

/-- The arbiter after power-on reset, and in OFFLINE and FAULTED (R20). -/
def Arbiter.off : Arbiter :=
  { phase := .off, bid := none, settle := none, roundFlag := false, roundGap := none }

/-! ### Frame engine -/

/-- The station's standing in the frame in progress (R33). -/
inductive Standing where
  | talker | participant | bystander
  deriving DecidableEq, Repr

/-- The verdict on the frame in progress (R33). -/
inductive Verdict where
  | good | headerError | malformed
  deriving DecidableEq, Repr

/-- The frame state (R33). A field is none where the rule calls it absent. -/
structure FrameState where
  position : Position
  standing : Option Standing
  address : Option Byte
  source : Option Byte
  type : Option Byte
  verdict : Option Verdict
  addressed : Option Bool
  expandedLength : Option Nat
  payloadCount : Option Nat
  runCount : Option Nat
  tag : Option Byte
  deadlineHigh : Option Byte
  deadlineLow : Option Byte
  deriving DecidableEq, Repr

/-- No frame in progress (R33). -/
def FrameState.absent : FrameState :=
  { position := .none, standing := none, address := none, source := none, type := none,
    verdict := none, addressed := none, expandedLength := none, payloadCount := none,
    runCount := none, tag := none, deadlineHigh := none, deadlineLow := none }

/-- The frame engine (R33, R48, R51). -/
structure FrameEngine where
  frame : FrameState
  /-- how many bytes of its own frame the talker has withdrawn; it names the byte on offer or awaiting offer (R48, R50) -/
  sentBytes : Nat
  /-- the byte the readback comparator checks, none while it is stopped (R51) -/
  comparator : Option BusByte
  deriving DecidableEq, Repr

/-- The frame engine after power-on reset, and in OFFLINE and FAULTED (R33, R51). -/
def FrameEngine.idle : FrameEngine :=
  { frame := FrameState.absent, sentBytes := 0, comparator := none }

/-! ### Transmit manager -/

/-- States of a descriptor (R99). -/
inductive DescriptorState where
  | free | filling | queued | selected | inFlight | done
  deriving DecidableEq, Repr

/-- The class of a descriptor (R99). -/
inductive TxClass where
  | normal | urgent
  deriving DecidableEq, Repr

/-- Outcomes of an attempt (R110). -/
inductive TxOutcome where
  | sent | noListener | stalled | broken | clash
  deriving DecidableEq, Repr

/-- A descriptor of the frame table (R99). In FREE every other field has the value of Descriptor.empty. -/
structure Descriptor where
  state : DescriptorState
  tag : Byte
  cls : TxClass
  destination : Byte
  compress : Bool
  length : Nat
  /-- block numbers, in the order in which they were given (R87) -/
  blocks : List Nat
  attempts : Nat
  outcome : Option TxOutcome
  completedAt : Option ClockTime
  deriving DecidableEq, Repr

/-- A FREE entry (R99). -/
def Descriptor.empty : Descriptor :=
  { state := .free, tag := 0, cls := .normal, destination := 0, compress := false, length := 0,
    blocks := [], attempts := 0, outcome := none, completedAt := none }

/-- States of a frame in the system slot (R101); EMPTY is the slot without a frame. -/
inductive SlotState where
  | queued | selected | inFlight
  deriving DecidableEq, Repr

/-- What the frame in the system slot is (R101). -/
inductive SlotKind where
  | hello
  | openFrame (group tag : Byte) (deadline : Deadline)
  | cancelFrame (group tag : Byte)
  deriving DecidableEq, Repr

/-- The frame in the system slot (R101). -/
structure SlotFrame where
  state : SlotState
  kind : SlotKind
  attempts : Nat
  removal : Bool
  deriving DecidableEq, Repr

/-- A frame of the station: a descriptor by its entry number, or the system slot's. -/
inductive FrameRef where
  | slot
  | descriptor (i : Fin 16)
  deriving DecidableEq, Repr

/-- The transmit manager (R99, R100, R101, R110). -/
structure TransmitManager where
  table : Vector Descriptor 16
  urgent : List (Fin 16)
  normal : List (Fin 16)
  completion : List (Fin 16)
  slot : Option SlotFrame
  /-- the outcome handed in the attempt in progress (R110) -/
  handed : Option TxOutcome
  deriving DecidableEq, Repr

/-- The transmit manager after a reset (R121). -/
def TransmitManager.cleared : TransmitManager :=
  { table := Vector.replicate 16 Descriptor.empty, urgent := [], normal := [], completion := [],
    slot := none, handed := none }

/-! ### Receive manager -/

/-- How a listener treats a frame when it is short of room (R123). -/
inductive Policy where
  | strict | lenient
  deriving DecidableEq, Repr

/-- The status of a record (R134). -/
inductive RecordStatus where
  | complete | truncated | malformed
  deriving DecidableEq, Repr

/-- A record of the record queue (R134). -/
structure Record where
  sequence : Byte
  source : Byte
  address : Byte
  type : Byte
  status : RecordStatus
  fullLength : Nat
  keptLength : Nat
  completedAt : ClockTime
  blocks : List Nat
  aged : Bool
  deriving DecidableEq, Repr

/-- The record under construction (R122). -/
structure Construction where
  source : Byte
  address : Byte
  type : Byte
  blocks : List Nat
  keptLength : Nat
  fullLength : Nat
  status : RecordStatus
  deriving DecidableEq, Repr

/-- Reception states (R122). -/
inductive ReceptionState where
  | idle | slotWait | storing | blockWait | truncated | malformed | dropping
  deriving DecidableEq, Repr

/-- Copies of one item not yet stored (R129). -/
structure HeldCopies where
  value : Byte
  count : Nat
  deriving DecidableEq, Repr

/-- The receive manager (R122, R123, R129). -/
structure ReceiveManager where
  state : ReceptionState
  policy : Option Policy
  construction : Option Construction
  held : Option HeldCopies
  records : List Record
  sequence : Byte
  deriving DecidableEq, Repr

/-- The receive manager after a reset (R122, R146). -/
def ReceiveManager.cleared : ReceiveManager :=
  { state := .idle, policy := none, construction := none, held := none, records := [], sequence := 0 }

/-! ### Packet memory -/

/-- The packet memory (R87, R88): its contents as a canonical list of cells, and the ordered pool. The owner of a block and the three counts are computed from the pool and the block lists (Machine/Ops.lean, log 10). -/
structure PacketMemory where
  cells : List Host.Cell
  pool : List Nat
  deriving DecidableEq, Repr

/-- The packet memory after power-on reset (R97): every block in the pool, in ascending order. -/
def PacketMemory.powerOn : PacketMemory :=
  { cells := [], pool := List.range Config.blockCount }

/-! ### Rendezvous unit -/

/-- States of the view (R55). -/
inductive ViewState where
  | none | provisional | waiting | armed | cancelling | observing
  deriving DecidableEq, Repr

/-- The station's role in a rendezvous (R55). -/
inductive RdvRole where
  | opener | member
  deriving DecidableEq, Repr

/-- The fire-pending flag with the sensed time of the TRG release (R55), and whether a break holds the fire (R66). -/
inductive FirePending where
  | clear
  | pending (sensedAt : ClockTime) (ticks : Nat)
  | held (sensedAt : ClockTime)
  deriving DecidableEq, Repr

/-- The rendezvous view (R55). -/
structure View where
  state : ViewState
  tag : Option Byte
  group : Option Byte
  role : Option RdvRole
  openedAt : Option ClockTime
  deadline : Option Deadline
  /-- ticks since opened-at while the deadline timer runs (R75) -/
  timer : Option Nat
  freeze : Bool
  pendingArm : Bool
  tagKnown : Bool
  expiredHere : Bool
  cancelSentHere : Bool
  fire : FirePending
  closing : Bool
  /-- the deadline timer expired while the view was CANCELLING (R73, R76) -/
  expiredCancelling : Bool
  deriving DecidableEq, Repr

/-- The view in NONE: every other field absent, every flag clear (R55). -/
def View.absent : View :=
  { state := .none, tag := none, group := none, role := none, openedAt := none, deadline := none,
    timer := none, freeze := false, pendingArm := false, tagKnown := false, expiredHere := false,
    cancelSentHere := false, fire := .clear, closing := false, expiredCancelling := false }

/-- The noted open (R55). -/
structure NotedOpen where
  address : Byte
  source : Byte
  tag : Byte
  deadline : Deadline
  deriving DecidableEq, Repr

/-- How a rendezvous ended (R85). -/
inductive RdvOutcome where
  | fired | cancelled | broken | notOpened
  deriving DecidableEq, Repr

/-- Why a rendezvous did not open (R62). -/
inductive NotOpenedReason where
  | lost | noMembers | attempts
  deriving DecidableEq, Repr

/-- An outcome record (R85). -/
structure OutcomeRecord where
  tag : Byte
  group : Byte
  role : RdvRole
  outcome : RdvOutcome
  reason : Option NotOpenedReason
  expiredHere : Bool
  cancelSentHere : Bool
  openedAt : Option ClockTime
  closedAt : ClockTime
  deriving DecidableEq, Repr

/-- The rendezvous unit (R55, R56, R85, R86). -/
structure RendezvousUnit where
  view : View
  noted : Option NotedOpen
  outcomes : List OutcomeRecord
  /-- OUTCOME holds a copy of the oldest record, which is still in the queue (R86) -/
  reading : Bool
  /-- FIRE is high, for this many ticks so far; none while it is low (R56) -/
  firePulse : Option Nat
  deriving DecidableEq, Repr

/-- The rendezvous unit after a reset (R55, R81). -/
def RendezvousUnit.cleared : RendezvousUnit :=
  { view := View.absent, noted := none, outcomes := [], reading := false, firePulse := none }

/-! ### Station controller -/

/-- Station states (R147). -/
inductive StationState where
  | offline | joining | online | leaving | faulted
  deriving DecidableEq, Repr

/-- Join phases (R147). -/
inductive JoinPhase where
  | awaitClear | participating
  deriving DecidableEq, Repr

/-- Reasons of the STATION cause (R183). -/
inductive StationReason where
  | joinStarted | joined | joinAbandoned | duplicate | noJoin | clash | leaveStarted | left | reset
  | duplicateSeen
  deriving DecidableEq, Repr

/-- The configuration record (R157). -/
structure Configuration where
  stallLimit : Nat
  silenceLimit : Nat
  retryLimit : Nat
  receiveReserve : Nat
  notifyThreshold : Nat
  ageLimit : Nat
  unicast : Policy
  broadcast : Policy
  deriving DecidableEq, Repr

/-- The defaults of the configuration record (R157). -/
def Configuration.defaults : Configuration :=
  { stallLimit := 20, silenceLimit := 10, retryLimit := 3, receiveReserve := 32,
    notifyThreshold := 1, ageLimit := 0, unicast := .lenient, broadcast := .lenient }

/-- The station controller (R147, R52, R152). A subscription entry of none is NONE (R159). -/
structure StationController where
  state : StationState
  joinPhase : Option JoinPhase
  leaveRequested : Bool
  resetInProgress : Bool
  /-- the reason of an entry into FAULTED that waits for the release of BRK (R52, R152) -/
  pendingFault : Option StationReason
  number : StationNumber
  configuration : Configuration
  subscriptions : Vector (Option Policy) 16
  clock : ClockTime
  deriving DecidableEq, Repr

/-- The station controller after power-on reset, with the station number sampled from the straps (R147, R160, R161). -/
def StationController.powerOn (straps : StationNumber) : StationController :=
  { state := .offline, joinPhase := none, leaveRequested := false, resetInProgress := false,
    pendingFault := none, number := straps, configuration := Configuration.defaults,
    subscriptions := Vector.replicate 16 none, clock := 0 }

/-! ### Host port -/

/-- Phases of the host port (R166). -/
inductive PortPhase where
  | command | param | dataIn | busy | result | dataOut
  deriving DecidableEq, Repr

/-- What an owner gives back to the port: what BUSY will enter (R170, R176). -/
inductive Reply where
  /-- RESULT with these bytes -/
  | result (bytes : List Byte)
  /-- DATA_IN for this many payload bytes -/
  | dataIn (count : Nat)
  /-- BUSY until the clearing of a soft reset -/
  | resetBusy
  /-- the clearing was made in the action of the command -/
  | resetDone
  deriving DecidableEq, Repr

/-- The host port (R166, R165). -/
structure HostPort where
  phase : PortPhase
  command : Option Byte
  parameters : List Byte
  toCome : Nat
  dataInCount : Nat
  result : List Byte
  position : Nat
  dataOutCount : Nat
  abandonHeld : Bool
  /-- the reply BUSY will enter the next phase with (R170) -/
  reply : Option Reply
  /-- time spent in BUSY, bounded by 4 µs (R170) -/
  busyTime : Option Nat
  /-- the byte the port drove on D0–D7 at the latest access, none for a write (R165) -/
  driven : Option Byte
  deriving DecidableEq, Repr

/-- The host port in COMMAND with every other field absent (R166). -/
def HostPort.idle : HostPort :=
  { phase := .command, command := none, parameters := [], toCome := 0, dataInCount := 0,
    result := [], position := 0, dataOutCount := 0, abandonHeld := false, reply := none,
    busyTime := none, driven := none }

/-! ### Cause unit -/

/-- The seven counters (R191). -/
structure Counters where
  frameBreaks : BitVec 16
  clearBreaks : BitVec 16
  framesDropped : BitVec 16
  recordsTruncated : BitVec 16
  recordsMalformed : BitVec 16
  outcomesLost : BitVec 16
  duplicates : BitVec 16
  deriving DecidableEq, Repr

/-- Every counter at 0 (R184, R192). -/
def Counters.zero : Counters :=
  { frameBreaks := 0, clearBreaks := 0, framesDropped := 0, recordsTruncated := 0,
    recordsMalformed := 0, outcomesLost := 0, duplicates := 0 }

/-- The cause unit (R184). The mask holds the six enables in the places of the cause byte (R178). -/
structure CauseUnit where
  port : Bool
  station : Bool
  bus : Bool
  reason : Option StationReason
  rendezvous : Bool
  receive : Bool
  complete : Bool
  mask : Byte
  int : Bool
  counters : Counters
  deriving DecidableEq, Repr

/-- The cause unit after power-on reset (R184). -/
def CauseUnit.powerOn : CauseUnit :=
  { port := false, station := false, bus := false, reason := none, rendezvous := false,
    receive := false, complete := false, mask := 0, int := false, counters := Counters.zero }

/-! ### The lines while the station is off the bus -/

/-- Levels of OWN, REQ, BRK and TRG at the pins. -/
structure PinLevels where
  own : Bool
  req : Bool
  brk : Bool
  trg : Bool
  deriving DecidableEq, Repr

/-- The four lines released. -/
def PinLevels.released : PinLevels := { own := false, req := false, brk := false, trg := false }

/-- The four lines as a station senses them. -/
def PinLevels.ofSense (l : Lines) : PinLevels :=
  { own := l.own, req := l.req, brk := l.brk, trg := l.trg }

/-! ### The station -/

/-- The state of the station. -/
structure State where
  power : PowerState
  line : LineInterface
  hs : Handshake
  arb : Arbiter
  fe : FrameEngine
  tm : TransmitManager
  rm : ReceiveManager
  mem : PacketMemory
  rdv : RendezvousUnit
  ctl : StationController
  port : HostPort
  cause : CauseUnit
  /-- the model's own: the levels that JOIN finds when the sensing of the lines begins (R149, log 8); kept while the line interface senses nothing -/
  pins : PinLevels
  /-- reference clock periods inside the current microsecond (R161) -/
  refPhase : Nat
  /-- the model's own: index of the next free value (log 4) -/
  freeIndex : Nat
  /-- the commands that wait, first in first out -/
  pending : List Instr
  deriving DecidableEq, Repr

/-- The values every block takes at power-on reset (R162), with the straps' number; the queue of commands and the model's own counter belong to no block. -/
def State.powerOn (straps : StationNumber) (power : PowerState) (freeIndex : Nat)
    (pending : List Instr) : State :=
  { power := power, line := LineInterface.quiet, hs := Handshake.idle, arb := Arbiter.off,
    fe := FrameEngine.idle, tm := TransmitManager.cleared, rm := ReceiveManager.cleared,
    mem := PacketMemory.powerOn, rdv := RendezvousUnit.cleared,
    ctl := StationController.powerOn straps, port := HostPort.idle, cause := CauseUnit.powerOn,
    pins := PinLevels.released,
    refPhase := 0, freeIndex := freeIndex, pending := pending }

/-- Right after the release of RESET# (R162), with every strap low (log 5), the model's counter at 0 (log 4) and no command waiting. -/
def State.reset : State := State.powerOn 0 .running 0 []

/-- The reasons a step can stop with a fault: none. Every command has an effect or is ignored, and what the spec itself calls a fault is state (FAULTED, the PORT cause, a verdict). No constructor, so nobody raises one (log 32). -/
inductive Fault where
  deriving DecidableEq, Repr

/-- The reasons a step can be refused. -/
inductive Refusal where
  /-- Raised by an arm of the dispatch whose command has no meaning yet; safe, because nothing can be proved of a next state that is not there. No arm of this model raises it. -/
  | notModelled (mnemonic : String)
  deriving DecidableEq, Repr

end Sys2Proof.Machine
end

