-- ==== Sys2Proof/Machine/Ops.lean ====
section
/-! DEFINITION. Shared operations: byte order on the host port, the packet memory and its blocks, the drive of a line, and what the rules ask of a station state. -/

namespace Sys2Proof.Machine

open Sys2Proof

/-! ### Byte order on the host port (R178): high byte first -/

/-- A two-byte value from its bytes, high byte first (R178). -/
def word16 (high low : Byte) : BitVec 16 := high ++ low

/-- The two bytes of a 16-bit value, high byte first (R178). -/
def bytes16 (w : BitVec 16) : List Byte := [w.extractLsb' 8 8, w.extractLsb' 0 8]

/-- The four bytes of a timestamp, from bits 31–24 down to bits 7–0 (R178). -/
def bytes32 (w : ClockTime) : List Byte :=
  [w.extractLsb' 24 8, w.extractLsb' 16 8, w.extractLsb' 8 8, w.extractLsb' 0 8]

/-- A count as one byte. -/
def byteOf (n : Nat) : Byte := BitVec.ofNat 8 n

/-- A length as two bytes, high byte first (R178). -/
def bytesOfLength (n : Nat) : List Byte := bytes16 (BitVec.ofNat 16 n)

/-! ### Packet memory contents (R87) -/

/-- What a byte of packet memory that nothing has written reads as (log 6). -/
def Memory.unwritten : Byte := 0

/-- The byte at an address. -/
def Memory.read : List Host.Cell → Nat → Byte
  | [], _ => Memory.unwritten
  | (k, v) :: rest, a => if k = a then v else Memory.read rest a

/-- A cell in front of a memory whose addresses lie above it, left out if it holds what an unlisted address reads as. -/
def Memory.cons (a : Nat) (v : Byte) (m : List Host.Cell) : List Host.Cell :=
  if v = Memory.unwritten then m else (a, v) :: m

/-- Write one byte, keeping the canonical form. -/
def Memory.write : List Host.Cell → Nat → Byte → List Host.Cell
  | [], a, v => Memory.cons a v []
  | (k, w) :: rest, a, v =>
    if a < k then Memory.cons a v ((k, w) :: rest)
    else if a = k then Memory.cons a v rest
    else (k, w) :: Memory.write rest a v

/-- The canonical form: addresses strictly rising, no cell holding what an unlisted address reads as. -/
def Memory.wf : List Host.Cell → Bool
  | [] => true
  | (k, v) :: rest =>
    decide (v ≠ Memory.unwritten) && rest.all (fun c => decide (k < c.1)) && Memory.wf rest

/-- Where payload byte i of an owner lies: block number ⌊i/64⌋ of its list, at offset i mod 64 (R87). -/
def payloadAddress (blocks : List Nat) (i : Nat) : Option Nat :=
  (blocks[i / Config.blockBytes]?).map
    (fun b => Config.blockBytes * b + i % Config.blockBytes)

/-- Place one payload byte of an owner in its block list (R87). -/
def writePayload (cells : List Host.Cell) (blocks : List Nat) (i : Nat) (v : Byte) :
    List Host.Cell :=
  match payloadAddress blocks i with
  | some a => Memory.write cells a v
  | none => cells

/-- One payload byte of an owner (R87). -/
def readPayloadByte (cells : List Host.Cell) (blocks : List Nat) (i : Nat) : Byte :=
  match payloadAddress blocks i with
  | some a => Memory.read cells a
  | none => Memory.unwritten

/-- The first bytes of an owner's payload, in order (R48, R138). -/
def readPayload (cells : List Host.Cell) (blocks : List Nat) (length : Nat) : List Byte :=
  (List.range length).map (readPayloadByte cells blocks)

/-! ### Blocks, their owners and the three counts (R87–R89) -/

/-- ⌈L/64⌉, the blocks a payload of length L needs (R87, R90). -/
def blocksNeeded (length : Nat) : Nat := (length + (Config.blockBytes - 1)) / Config.blockBytes

/-- Blocks held by descriptors, in order of entry number (R88). -/
def descriptorBlocks (s : State) : List Nat := s.tm.table.toList.flatMap (·.blocks)

/-- Blocks held by queued records, oldest record first. -/
def recordBlocks (s : State) : List Nat := s.rm.records.flatMap (·.blocks)

/-- Blocks held by the record under construction. -/
def constructionBlocks (s : State) : List Nat :=
  match s.rm.construction with
  | some c => c.blocks
  | none => []

/-- The count of free blocks (R88). -/
def freeCount (s : State) : Nat := s.mem.pool.length

/-- Transmit-held: blocks in descriptors of every state (R88). -/
def transmitHeld (s : State) : Nat := (descriptorBlocks s).length

/-- Receive-held: blocks of every queued record and of the record under construction (R88). -/
def receiveHeld (s : State) : Nat := (recordBlocks s).length + (constructionBlocks s).length

/-- The transmit quota: 128 less the receive reserve (R89). -/
def transmitQuota (s : State) : Nat := Config.blockCount - s.ctl.configuration.receiveReserve

/-- The three kinds of owner of a block (R87); none stands for a block that no list names. -/
inductive BlockOwner where
  | free
  | descriptor (i : Fin 16)
  | record
  deriving DecidableEq, Repr

/-- The sixteen entry numbers, in order. -/
def entryNumbers : List (Fin 16) := [0, 1, 2, 3, 4, 5, 6, 7, 8, 9, 10, 11, 12, 13, 14, 15]

/-- The owner of a block (R87), read off the pool and the block lists (log 10). -/
def blockOwner (s : State) (b : Nat) : Option BlockOwner :=
  if b ∈ s.mem.pool then some .free
  else match entryNumbers.find? (fun i => decide (b ∈ s.tm.table[i].blocks)) with
    | some i => some (.descriptor i)
    | none => if b ∈ recordBlocks s ∨ b ∈ constructionBlocks s then some .record else none

/-- Freed blocks join the tail of the pool, in the order of the owner's list (R88). -/
def returnToPool (blocks : List Nat) (s : State) : State :=
  { s with mem.pool := s.mem.pool ++ blocks }

/-! ### The drive of TRG -/

/-- Release TRG; while a soft reset is in progress the drive is kept until the clearing (R81, log 17). -/
def releaseTrg (s : State) : State :=
  if s.ctl.resetInProgress then s else { s with line.drive.trg := false }

/-- Assert TRG (R56). -/
def assertTrg (s : State) : State := { s with line.drive.trg := true }

/-! ### What the rules ask of a station state -/

/-- The line interface senses the lines in JOINING, ONLINE and LEAVING (R2). -/
def senses (s : State) : Bool :=
  match s.ctl.state with
  | .joining | .online | .leaving => true
  | .offline | .faulted => false

/-- The station participates: ONLINE, LEAVING, or JOINING with participation begun (R5). -/
def participates (s : State) : Bool :=
  match s.ctl.state with
  | .online | .leaving => true
  | .joining => s.ctl.joinPhase == some .participating
  | .offline | .faulted => false

/-- The station is talker, in any phase (R4). -/
def isTalker (s : State) : Bool :=
  match s.hs.role with
  | .talker _ => true
  | _ => false

/-- A frame is in progress at the station (R12); at the talker until it releases OWN (R26, log 12). -/
def frameInProgress (s : State) : Bool := s.fe.frame.position != .none || isTalker s

/-! ### Timers -/

/-- A running timer has run for at least this long. -/
def reached (t : Option Nat) (limit : Nat) : Bool :=
  match t with
  | some n => decide (limit ≤ n)
  | none => false

/-- The stall limit in periods (R14). -/
def stallBound (s : State) : Nat := s.ctl.configuration.stallLimit * Config.stallUnit

/-- The silence limit in periods (R15). -/
def silenceBound (s : State) : Nat := s.ctl.configuration.silenceLimit * Config.silenceUnit

/-! ### The silence timer (R15) -/

/-- Start the silence timer from zero again if it runs: at an edge of OFFER (R15). A silence break held back by the guard loses its reason (R16). -/
def restartSilence (s : State) : State :=
  { s with
    hs.silence := s.hs.silence.map (fun _ => 0),
    line.heldFrame := s.line.heldFrame.filter (· != .silence) }

/-- Stop the silence timer at zero (R15). -/
def stopSilence (s : State) : State :=
  { s with
    hs.silence := none,
    line.heldFrame := s.line.heldFrame.filter (· != .silence) }

/-- Run the silence timer from zero if OWN or REQ is sensed asserted, else stop it (R15, R19). -/
def resumeSilence (s : State) : State :=
  { s with hs.silence := if s.line.sense.own || s.line.sense.req then some 0 else none }

/-- A participant at rest: PEND asserted, WAIT released, READY (R5). -/
def restAsParticipant (s : State) : State :=
  { s with line.drive.pend := true, line.drive.wait := false, hs.role := .participant .ready }

/-! ### Breaks (R16, R68) -/

/-- A station is to begin a frame break (R16): the guard holds it back; a sensed BRK, or the station's own pulse of the same kind, stands for it. -/
def requestFrameBreak (reason : FrameBreakReason) (s : State) : State :=
  if s.line.sense.brk then s
  else if s.line.guard.isSome then { s with line.heldFrame := reason :: s.line.heldFrame }
  else if s.line.framePulse.isSome then s
  else { s with line.framePulse := some 0, line.drive.brk := true }

/-- A station is to begin a clear break, with the delay of R68 passed (R16): the guard holds it back; a pulse of its own of the same kind stands for it; a sensed BRK does not. -/
def startClearBreak (s : State) : State :=
  if s.line.guard.isSome then { s with line.heldClear := true }
  else if s.line.clearPulse.isSome then s
  else { s with line.clearPulse := some 0, line.drive.brk := true }

/-- A station is to begin a clear break (R68): within 300 ns of a sensed release of TRG it waits for the end of the delay. -/
def requestClearBreak (s : State) : State :=
  if s.line.trgDelay.isSome then { s with line.delayedClear := true } else startClearBreak s

/-- A clear break of this station waits for the guard of R16 or for the delay of R68. -/
def clearBreakHeld (s : State) : Bool := s.line.heldClear || s.line.delayedClear

end Sys2Proof.Machine
end

