-- ==== Sys2Proof/Machine/Flags.lean ====
section
/-! DEFINITION. The cause unit: sticky bits, level conditions, mask, INT and the seven counters (chapter 10). -/

namespace Sys2Proof.Machine

open Sys2Proof

/-! ### Hand-offs (R185, R186, R191) -/

/-- One more event; a counter at 65535 stays there (R191). -/
def countUp (c : BitVec 16) : BitVec 16 := if c = 0xFFFF#16 then c else c + 1

/-- A STATION hand-off sets the bit and replaces the reason (R186). -/
def handStation (reason : StationReason) (s : State) : State :=
  { s with cause.station := true, cause.reason := some reason }

/-- A protocol error sets PORT (R185). -/
def handPort (s : State) : State := { s with cause.port := true }

/-- A frame break was classified (R18, R191). -/
def handFrameBreak (s : State) : State :=
  { s with
    cause.bus := true,
    cause.counters.frameBreaks := countUp s.cause.counters.frameBreaks }

/-- A clear break was classified (R18, R191). -/
def handClearBreak (s : State) : State :=
  { s with
    cause.bus := true,
    cause.counters.clearBreaks := countUp s.cause.counters.clearBreaks }

/-- A duplicate SOURCE was found (R53, R191). -/
def handDuplicate (s : State) : State :=
  handStation .duplicateSeen
    { s with cause.counters.duplicates := countUp s.cause.counters.duplicates }

/-- One more frame dropped (R127, R135). -/
def countDropped (s : State) : State :=
  { s with cause.counters.framesDropped := countUp s.cause.counters.framesDropped }

/-- One more record truncated (R133). -/
def countTruncated (s : State) : State :=
  { s with cause.counters.recordsTruncated := countUp s.cause.counters.recordsTruncated }

/-- One more record malformed (R133). -/
def countMalformed (s : State) : State :=
  { s with cause.counters.recordsMalformed := countUp s.cause.counters.recordsMalformed }

/-- One more outcome lost (R86). -/
def countOutcomeLost (s : State) : State :=
  { s with cause.counters.outcomesLost := countUp s.cause.counters.outcomesLost }

/-! ### The cause byte (R178): bit 5 PORT, 4 STATION, 3 BUS, 2 RENDEZVOUS, 1 RECEIVE, 0 COMPLETE -/

/-- A bit of the cause byte, or nothing. -/
def causeBit (held : Bool) (bit : Byte) : Byte := if held then bit else 0

/-- A 1 in the bit of every pending cause (R184, R190). -/
def pendingSet (c : CauseUnit) : Byte :=
  causeBit c.port 0x20 ||| causeBit c.station 0x10 ||| causeBit c.bus 0x08 |||
    causeBit c.rendezvous 0x04 ||| causeBit c.receive 0x02 ||| causeBit c.complete 0x01

/-- Bits 7–6 of a cause byte are not examined and read as 0 (R178). -/
def causeBits (b : Byte) : Byte := b &&& 0x3F

/-- The bit of the pending and enabled cause of highest priority, alone, or 00h (R190). -/
def highestCause (c : CauseUnit) : Byte :=
  let enabled := pendingSet c &&& c.mask
  if enabled &&& 0x20 ≠ 0 then 0x20
  else if enabled &&& 0x10 ≠ 0 then 0x10
  else if enabled &&& 0x08 ≠ 0 then 0x08
  else if enabled &&& 0x04 ≠ 0 then 0x04
  else if enabled &&& 0x02 ≠ 0 then 0x02
  else enabled &&& 0x01

/-- INT is asserted while a cause is pending and enabled (R189). -/
def intAsserted (c : CauseUnit) : Bool := pendingSet c &&& c.mask != 0

/-! ### Level conditions (R187) -/

/-- The RECEIVE condition: the threshold is reached, or the age limit is on and the head record is aged (R142). -/
def receiveCondition (s : State) : Bool :=
  decide (s.ctl.configuration.notifyThreshold ≤ s.rm.records.length) ||
    (decide (s.ctl.configuration.ageLimit ≠ 0) &&
      match s.rm.records with
      | r :: _ => r.aged
      | [] => false)

/-- The owners hand their level conditions and INT is re-evaluated, in the action that changes them (R187, R189). -/
def settleCauses (s : State) : State :=
  let handed : CauseUnit :=
    { s.cause with
      rendezvous := !s.rdv.outcomes.isEmpty
      receive := receiveCondition s
      complete := !s.tm.completion.isEmpty }
  { s with cause := { handed with int := intAsserted handed } }

/-- One whole action of a running part: the change, then the level conditions and INT. While RESET# is low or the supply is missing nothing is taken (R162, R83). -/
def act (change : State → State) (s : State) : Host.Outcome State Fault Refusal :=
  if s.power = .running then .next (settleCauses (change s)) else .next s

/-- An action on something the lines show: it reaches a station only while it senses them (R2). -/
def actOnBus (change : State → State) : State → Host.Outcome State Fault Refusal :=
  act (fun s => if senses s then change s else s)

/-- An action on an edge of OWN, REQ, BRK or TRG: while the station senses nothing only the level at the pin follows (R2, log 8). -/
def actOnLine (note : PinLevels → PinLevels) (change : State → State) :
    State → Host.Outcome State Fault Refusal :=
  act (fun s => if senses s then change s else { s with pins := note s.pins })

/-! ### ACKNOWLEDGE, SET MASK, and the copies of CAUSES and SNAPSHOT -/

/-- ACKNOWLEDGE clears every sticky bit the byte names, and with STATION the reason (R188). -/
def acknowledgeCauses (b : Byte) (c : CauseUnit) : CauseUnit :=
  { c with
    port := c.port && (b &&& 0x20 == 0)
    station := c.station && (b &&& 0x10 == 0)
    bus := c.bus && (b &&& 0x08 == 0)
    reason := if b &&& 0x10 = 0 then c.reason else none }

/-- Every sticky bit clear, no reason, every counter 0; mask and conditions kept (R164, R194). -/
def CauseUnit.cleared (c : CauseUnit) : CauseUnit :=
  { c with port := false, station := false, bus := false, reason := none, counters := Counters.zero }

/-- The codes of the station reason (R183). -/
def reasonCode : Option StationReason → Byte
  | none => 0x00
  | some .joinStarted => 0x01
  | some .joined => 0x02
  | some .joinAbandoned => 0x03
  | some .duplicate => 0x04
  | some .noJoin => 0x05
  | some .clash => 0x06
  | some .leaveStarted => 0x07
  | some .left => 0x08
  | some .reset => 0x09
  | some .duplicateSeen => 0x0A

/-- The counters in the order of SNAPSHOT's bytes 13–26 (R183, R191). -/
def counterBytes (c : Counters) : List Byte :=
  bytes16 c.frameBreaks ++ bytes16 c.clearBreaks ++ bytes16 c.framesDropped ++
    bytes16 c.recordsTruncated ++ bytes16 c.recordsMalformed ++ bytes16 c.outcomesLost ++
    bytes16 c.duplicates

end Sys2Proof.Machine
end

