-- ==== Sys2Proof/Machine/Operands.lean ====
section
/-! DEFINITION. The codes of commands, parameters, statuses and results on the host port (R177–R183), and the bytes of a frame on the bus: header values, run coding and the parse of a frame (R33–R49). -/

namespace Sys2Proof.Machine

open Sys2Proof

/-! ### Statuses and codes of the host port -/

/-- The statuses of a result (R177). -/
inductive Status where
  | ok | invalid | badState | badParam | noSpace | tableFull | dupTag | unknownTag | inFlight
  | empty | rdvBusy | notMember | deferred
  deriving DecidableEq, Repr

/-- The status byte (R177). -/
def statusCode : Status → Byte
  | .ok => 0x00
  | .invalid => 0x01
  | .badState => 0x02
  | .badParam => 0x03
  | .noSpace => 0x04
  | .tableFull => 0x05
  | .dupTag => 0x06
  | .unknownTag => 0x07
  | .inFlight => 0x08
  | .empty => 0x09
  | .rdvBusy => 0x0A
  | .notMember => 0x0B
  | .deferred => 0x0C

/-- A result of a status alone (R177). -/
def statusReply (st : Status) : Reply := .result [statusCode st]

/-- The commands of the host (command table of 9.3). -/
inductive HostCommand where
  | configure
  | setGroup
  | join
  | leave
  | send
  | withdraw
  | reap
  | fetch
  | discard
  | openRdv
  | arm
  | cancel
  | outcome
  | causes
  | acknowledge
  | setMask
  | snapshot
  | softReset
  deriving DecidableEq, Repr

/-- The command codes (command table of 9.3); none is an unknown code (R168). -/
def commandOfCode (b : Byte) : Option HostCommand :=
  if b = 0x01 then some .configure
  else if b = 0x02 then some .setGroup
  else if b = 0x03 then some .join
  else if b = 0x04 then some .leave
  else if b = 0x10 then some .send
  else if b = 0x11 then some .withdraw
  else if b = 0x12 then some .reap
  else if b = 0x20 then some .fetch
  else if b = 0x21 then some .discard
  else if b = 0x30 then some .openRdv
  else if b = 0x31 then some .arm
  else if b = 0x32 then some .cancel
  else if b = 0x33 then some .outcome
  else if b = 0x40 then some .causes
  else if b = 0x41 then some .acknowledge
  else if b = 0x42 then some .setMask
  else if b = 0x43 then some .snapshot
  else if b = 0x7F then some .softReset
  else none

/-- The number of parameter bytes of a command (layout summary of 9.4). -/
def parametersOf : HostCommand → Nat
  | .configure => 8
  | .send => 6
  | .openRdv => 4
  | .setGroup => 2
  | .withdraw | .acknowledge | .setMask | .snapshot => 1
  | .join | .leave | .reap | .fetch | .discard | .arm | .cancel | .outcome | .causes | .softReset => 0

/-- The number of parameter bytes of a known command code, none for an unknown code (R168). -/
def parameterCount (code : Byte) : Option Nat := (commandOfCode code).map parametersOf

/-- The class codes (R178). -/
def classOfCode (b : Byte) : Option TxClass :=
  if b = 0x00 then some .normal else if b = 0x01 then some .urgent else none

/-- The class code of a class (R178). -/
def classCode : TxClass → Byte
  | .normal => 0x00
  | .urgent => 0x01

/-- The policy codes of CONFIGURE (R178). -/
def policyOfCode (b : Byte) : Option Policy :=
  if b = 0x01 then some .strict else if b = 0x02 then some .lenient else none

/-- The mode codes of SET GROUP (R178): the outer none is an undefined code, the inner one is NONE. -/
def modeOfCode (b : Byte) : Option (Option Policy) :=
  if b = 0x00 then some none
  else if b = 0x01 then some (some .strict)
  else if b = 0x02 then some (some .lenient)
  else none

/-- The station state codes (R178). -/
def stationStateCode : StationState → Byte
  | .offline => 0x00
  | .joining => 0x01
  | .online => 0x02
  | .leaving => 0x03
  | .faulted => 0x04

/-- The view state codes (R178). -/
def viewStateCode : ViewState → Byte
  | .none => 0x00
  | .provisional => 0x01
  | .waiting => 0x02
  | .armed => 0x03
  | .cancelling => 0x04
  | .observing => 0x05

/-- The outcome codes of REAP (R180). -/
def txOutcomeCode : TxOutcome → Byte
  | .sent => 0x01
  | .noListener => 0x02
  | .stalled => 0x03
  | .broken => 0x04
  | .clash => 0x05

/-- The record status codes of FETCH (R181). -/
def recordStatusCode : RecordStatus → Byte
  | .complete => 0x01
  | .truncated => 0x02
  | .malformed => 0x03

/-- The role codes of OUTCOME (R182). -/
def rdvRoleCode : RdvRole → Byte
  | .opener => 0x01
  | .member => 0x02

/-- The outcome codes of OUTCOME (R182). -/
def rdvOutcomeCode : RdvOutcome → Byte
  | .fired => 0x01
  | .cancelled => 0x02
  | .broken => 0x03
  | .notOpened => 0x04

/-- The reason codes of OUTCOME; 00h where there is none (R182). -/
def notOpenedCode : Option NotOpenedReason → Byte
  | none => 0x00
  | some .lost => 0x01
  | some .noMembers => 0x02
  | some .attempts => 0x03

/-- The phase codes of a read of PHASE (R167). -/
def portPhaseCode : PortPhase → Byte
  | .command => 0
  | .param => 1
  | .dataIn => 2
  | .busy => 3
  | .result => 4
  | .dataOut => 5

/-! ### Header values (R34–R36) -/

/-- A station address, 00h–1Fh (R34). -/
def isStationAddress (b : Byte) : Bool := decide (b ≤ 0x1F#8)

/-- A group address 40h–4Fh (R34). -/
def isGroupAddress (b : Byte) : Bool := decide (0x40#8 ≤ b) && decide (b ≤ 0x4F#8)

/-- The broadcast address (R34). -/
def broadcast : Byte := 0x7F

/-- A group address or broadcast, as OPEN and CANCEL carry it (R36, R57). -/
def isRendezvousAddress (b : Byte) : Bool := isGroupAddress b || b == broadcast

/-- A defined ADDRESS (R34). -/
def isDefinedAddress (b : Byte) : Bool := isStationAddress b || isRendezvousAddress b

/-- The group number of a group address: the value less 40h (R34). -/
def groupOf (b : Byte) : Fin 16 := ⟨(b.toNat - 0x40) % 16, Nat.mod_lt _ (by decide)⟩

/-- TYPE values (R36). -/
def typeData : Byte := 0x01
/-- TYPE of an OPEN frame (R36). -/
def typeOpen : Byte := 0x02
/-- TYPE of a CANCEL frame (R36). -/
def typeCancel : Byte := 0x03
/-- TYPE of a HELLO frame (R36). -/
def typeHello : Byte := 0x04

/-- The station number as a header byte. -/
def numberByte (n : StationNumber) : Byte := n.setWidth 8

/-- A control byte: KIND asserted. -/
def controlByte (d : Byte) : BusByte := { data := d, kind := true, last := false }

/-- A data byte: KIND released. -/
def dataByte (d : Byte) : BusByte := { data := d, kind := false, last := false }

/-! ### Run coding at the talker (R49) -/

/-- The longest runs of identical consecutive bytes, from the first byte to the last (R49). -/
def longestRuns : List Byte → List (Byte × Nat)
  | [] => []
  | b :: rest =>
    match longestRuns rest with
    | (c, n) :: more => if b = c then (b, n + 1) :: more else (b, 1) :: (c, n) :: more
    | [] => [(b, 1)]

/-- The marker of a run of n copies, 3–66 (R42): the value is 80h plus n less 3. -/
def runMarker (n : Nat) : BusByte := controlByte (byteOf (0x80 + (n - 3)))

/-- The coding of one run (R49): whole pieces of 66, then the remainder as a marker or as plain data bytes. -/
def codeRun (run : Byte × Nat) : List BusByte :=
  let whole := run.2 / Config.longestRun
  let remainder := run.2 % Config.longestRun
  (List.replicate whole [runMarker Config.longestRun, dataByte run.1]).flatten ++
    (if remainder < 3 then List.replicate remainder (dataByte run.1)
     else [runMarker remainder, dataByte run.1])

/-- The payload of a DATA frame as it is offered: one data byte per stored byte, or coded as runs (R48, R49). -/
def codePayload (compress : Bool) (payload : List Byte) : List BusByte :=
  if compress then (longestRuns payload).flatMap codeRun else payload.map dataByte

/-- LAST is set on the last byte built (R48). -/
def markLast : List BusByte → List BusByte
  | [] => []
  | [b] => [{ b with last := true }]
  | b :: rest => b :: markLast rest

/-- A whole frame: three header bytes as control bytes, then the payload (R48). -/
def buildFrame (address source type : Byte) (payload : List BusByte) : List BusByte :=
  markLast ([controlByte address, controlByte source, controlByte type] ++ payload)

/-! ### The parse of a frame (R33–R47) -/

/-- What the frame engine hands on at a byte (R40, R41, R43, R44). -/
inductive FrameEvent where
  | nothing
  /-- a data byte with its copy count, and whether it carried LAST (R128) -/
  | copies (value : Byte) (count : Nat) (last : Bool)
  /-- the DATA payload is malformed from this byte on (R44) -/
  | malformed
  | cancelHeader (address : Byte)
  | openFinal (address source tag : Byte) (deadline : Deadline)
  | cancelFinal (address tag : Byte)
  deriving DecidableEq, Repr

/-- The frame state at the sensed assertion of OWN (R33). -/
def FrameState.started (st : Standing) : FrameState :=
  { FrameState.absent with position := .address, standing := some st, verdict := some .good }

/-- A header error sets the verdict and nothing takes it back (R37). -/
def headerVerdict (bad : Bool) (f : FrameState) : Option Verdict :=
  if bad then some .headerError else f.verdict

/-- Header byte 1 (R34). -/
def parseAddress (b : BusByte) (f : FrameState) : FrameState :=
  { f with
    position := .source
    address := some b.data
    verdict := headerVerdict (!isDefinedAddress b.data || !b.kind || b.last) f }

/-- Header byte 2 (R35). -/
def parseSource (b : BusByte) (f : FrameState) : FrameState :=
  { f with
    position := .type
    source := some b.data
    verdict := headerVerdict (!isStationAddress b.data || !b.kind || b.last) f }

/-- Header byte 3 is in error with this ADDRESS and SOURCE (R36). -/
def typeInError (b : BusByte) (f : FrameState) : Bool :=
  !b.kind ||
  !(b.data == typeData || b.data == typeOpen || b.data == typeCancel || b.data == typeHello) ||
  ((b.data == typeOpen || b.data == typeCancel) &&
    (match f.address with
     | some a => isStationAddress a
     | none => true)) ||
  (b.data == typeHello && (f.address != f.source || !b.last))

/-- The ADDRESS reaches the station (R38): its own number, a group it subscribes to, or broadcast. -/
def addressReaches (number : StationNumber) (subscriptions : Vector (Option Policy) 16)
    (address : Byte) : Bool :=
  address == numberByte number ||
  (isGroupAddress address && (subscriptions[groupOf address]).isSome) ||
  address == broadcast

/-- Header byte 3 (R36), with the address decision of R38 at every station but the talker. A byte after a LAST header byte 3 changes nothing. -/
def parseType (number : StationNumber) (subscriptions : Vector (Option Policy) 16)
    (b : BusByte) (f : FrameState) : FrameState × FrameEvent :=
  if f.type.isSome then (f, .nothing)
  else
    let verdict := headerVerdict (typeInError b f) f
    let good := verdict == some .good
    let address := f.address.getD 0
    let g : FrameState :=
      { f with
        position := if b.last then .type else .payload
        type := some b.data
        verdict := verdict
        addressed :=
          if f.standing == some .talker then none
          else some (good && addressReaches number subscriptions address)
        expandedLength := if b.data == typeData then some 0 else none
        payloadCount := if b.data == typeOpen || b.data == typeCancel then some 0 else none }
    (g, if good && b.data == typeCancel then .cancelHeader address else .nothing)

/-- The verdict becomes MALFORMED and any run count is dropped (R44, R45, R46). -/
def FrameState.spoiled (f : FrameState) : FrameState :=
  { f with position := .payload, verdict := some .malformed, runCount := none }

/-- A data byte of a DATA payload with its copy count (R43). -/
def parseCopies (count : Nat) (b : BusByte) (f : FrameState) : FrameState × FrameEvent :=
  let total := f.expandedLength.getD 0 + count
  if total ≤ Config.maxPayload then
    ({ f with position := .payload, runCount := none, expandedLength := some total },
      .copies b.data count b.last)
  else (f.spoiled, .malformed)

/-- A byte of a DATA payload (R42–R44). -/
def parseData (b : BusByte) (f : FrameState) : FrameState × FrameEvent :=
  if f.position = .afterMarker then
    if b.kind then (f.spoiled, .malformed) else parseCopies (f.runCount.getD 0) b f
  else if b.kind then
    if 0x80#8 ≤ b.data ∧ b.data ≤ 0xBF#8 ∧ b.last = false then
      ({ f with position := .afterMarker, runCount := some (b.data.toNat - 0x80 + 3) }, .nothing)
    else (f.spoiled, .malformed)
  else parseCopies 1 b f

/-- A data byte of an OPEN payload is counted and stored as the next payload value (R45): tag, deadline high, deadline low. There are three values and no fourth. -/
def FrameState.withOpenValue (v : Byte) (f : FrameState) : FrameState :=
  match f.payloadCount.getD 0 with
  | 0 => { f with payloadCount := some 1, tag := some v }
  | 1 => { f with payloadCount := some 2, deadlineHigh := some v }
  | 2 => { f with payloadCount := some 3, deadlineLow := some v }
  | _ => f

/-- A byte of an OPEN payload (R45): the third data byte with LAST completes it; LAST before it, no LAST on it, a fourth byte or a control byte makes the frame MALFORMED. -/
def parseOpen (b : BusByte) (f : FrameState) : FrameState × FrameEvent :=
  if b.kind then (f.spoiled, .malformed)
  else
    let g := f.withOpenValue b.data
    match f.payloadCount.getD 0, b.last with
    | 0, false | 1, false => (g, .nothing)
    | 2, true =>
      (g, .openFinal (f.address.getD 0) (f.source.getD 0) (f.tag.getD 0)
        (word16 (f.deadlineHigh.getD 0) b.data))
    | _, _ => (g.spoiled, .malformed)

/-- A data byte of a CANCEL payload is counted and stored as the tag (R33, R46). There is one value and no second. -/
def FrameState.withCancelValue (v : Byte) (f : FrameState) : FrameState :=
  if f.payloadCount.getD 0 = 0 then { f with payloadCount := some 1, tag := some v } else f

/-- A byte of a CANCEL payload (R46): one data byte with LAST completes it; a control byte, a data byte without LAST or a second byte makes the frame MALFORMED. -/
def parseCancel (b : BusByte) (f : FrameState) : FrameState × FrameEvent :=
  if b.kind then (f.spoiled, .malformed)
  else
    let g := f.withCancelValue b.data
    if b.last && f.payloadCount.getD 0 == 0 then (g, .cancelFinal (f.address.getD 0) b.data)
    else (g.spoiled, .malformed)

/-- A byte of the payload, by the type of the frame; after a header error or a format error nothing changes any more (R37, R44). That a byte observed behind the LAST byte, before the frame's completion window has ended, is one more byte of the payload is the model's choice (R33, log 41). -/
def parsePayload (b : BusByte) (f : FrameState) : FrameState × FrameEvent :=
  if f.verdict = some .good then
    if f.type = some typeData then parseData b f
    else if f.type = some typeOpen then parseOpen b f
    else if f.type = some typeCancel then parseCancel b f
    else (f, .nothing)
  else (f, .nothing)

/-- One byte taken, observed or offered (R33–R47). A byte that belongs to no frame changes nothing (R33). -/
def parseByte (number : StationNumber) (subscriptions : Vector (Option Policy) 16)
    (b : BusByte) (f : FrameState) : FrameState × FrameEvent :=
  match f.position with
  | .none => (f, .nothing)
  | .address => (parseAddress b f, .nothing)
  | .source => (parseSource b f, .nothing)
  | .type => parseType number subscriptions b f
  | .payload | .afterMarker => parsePayload b f

/-- A header byte 2 that shows a participant its own number in another station's frame (R53). -/
def isDuplicateSource (number : StationNumber) (b : BusByte) (f : FrameState) : Bool :=
  f.position == .source && b.kind && !b.last && b.data == numberByte number

/-- The verdict at the end of the frame: an OPEN or CANCEL without its payload is found malformed there (R45, R46). -/
def endVerdict (f : FrameState) : Option Verdict :=
  if f.verdict = some .good ∧ (f.type = some typeOpen ∨ f.type = some typeCancel) ∧
      f.payloadCount = some 0 then
    some .malformed
  else f.verdict

end Sys2Proof.Machine
end

