-- ==== Sys2Proof/Machine/Transmit.lean ====
section
/-! DEFINITION. The frame table, its three orders and the system slot: selection, return and removal of a frame (R23, R99–R101, R109, R119), and the bytes of the frame in flight (R48). -/

namespace Sys2Proof.Machine

open Sys2Proof

/-! ### Descriptors and their orders (R99, R100) -/

/-- Replace one descriptor. -/
def setDescriptor (i : Fin 16) (d : Descriptor) (s : State) : State :=
  { s with tm.table := s.tm.table.set i d }

/-- The lowest-numbered entry whose descriptor meets a test. -/
def findDescriptor (s : State) (test : Descriptor → Bool) : Option (Fin 16) :=
  entryNumbers.find? (fun i => test s.tm.table[i])

/-- A descriptor joins the tail of its class's queue in QUEUED (R100, R103). -/
def queueAtTail (i : Fin 16) (s : State) : State :=
  let d := s.tm.table[i]
  let s := setDescriptor i { d with state := .queued } s
  match d.cls with
  | .urgent => { s with tm.urgent := s.tm.urgent ++ [i] }
  | .normal => { s with tm.normal := s.tm.normal ++ [i] }

/-- A descriptor returns to the head of its class's queue in QUEUED (R100). -/
def queueAtHead (i : Fin 16) (s : State) : State :=
  let d := s.tm.table[i]
  let s := setDescriptor i { d with state := .queued } s
  match d.cls with
  | .urgent => { s with tm.urgent := i :: s.tm.urgent }
  | .normal => { s with tm.normal := i :: s.tm.normal }

/-- A descriptor leaves its class's queue from wherever it stands (R100). -/
def leaveQueue (i : Fin 16) (s : State) : State :=
  { s with
    tm.urgent := s.tm.urgent.filter (· != i)
    tm.normal := s.tm.normal.filter (· != i) }

/-- Descriptors that are not FREE (R121). -/
def descriptorsInUse (s : State) : Nat :=
  (entryNumbers.filter (fun i => s.tm.table[i].state != .free)).length

/-! ### The system slot (R101, R119) -/

/-- Set the slot's contents. -/
def setSlot (slot : Option SlotFrame) (s : State) : State := { s with tm.slot := slot }

/-- A frame as it is placed in the slot: QUEUED, attempts 0 (R101). -/
def SlotFrame.placed (kind : SlotKind) : SlotFrame :=
  { state := .queued, kind := kind, attempts := 0, removal := false }

/-- Remove the slot's frame by its state (R119): at once in QUEUED, by a removal request in SELECTED and IN_FLIGHT. -/
def removeSlotFrame (s : State) : State :=
  match s.tm.slot with
  | none => s
  | some f =>
    match f.state with
    | .queued => setSlot none s
    | .selected | .inFlight => setSlot (some { f with removal := true }) s

/-- The slot holds a CANCEL for this tag (R69, R76, R77). -/
def slotHoldsCancel (tag : Byte) (s : State) : Bool :=
  match s.tm.slot with
  | some f =>
    match f.kind with
    | .cancelFrame _ t => t == tag
    | _ => false
  | none => false

/-- Purge a CANCEL for this tag from the slot (R77). -/
def purgeCancel (tag : Byte) (s : State) : State :=
  if slotHoldsCancel tag s then removeSlotFrame s else s

/-! ### Selection (R23) -/

/-- The slot's frame, if it is QUEUED (R23). -/
def eligibleSlot (s : State) : Option FrameRef :=
  match s.tm.slot with
  | some f => if f.state = .queued then some .slot else none
  | none => none

/-- The head of the normal queue, if the round flag is clear (R23, R30). -/
def eligibleNormal (s : State) : Option FrameRef :=
  if s.arb.roundFlag then none else s.tm.normal.head?.map .descriptor

/-- The frame the station may bid with, by its state, in the order slot, urgent head, normal head (R23, R31). -/
def eligibleFrame (s : State) : Option FrameRef :=
  match s.ctl.state with
  | .online =>
    match eligibleSlot s with
    | some f => some f
    | none =>
      match s.tm.urgent with
      | i :: _ => some (.descriptor i)
      | [] => eligibleNormal s
  | .joining => if s.ctl.joinPhase = some .participating then eligibleSlot s else none
  | .offline | .leaving | .faulted => none

/-- The selected frame passes from QUEUED to SELECTED and leaves its queue (R23). -/
def selectFrame (f : FrameRef) (s : State) : State :=
  match f with
  | .slot =>
    match s.tm.slot with
    | some g => setSlot (some { g with state := .selected }) s
    | none => s
  | .descriptor i =>
    leaveQueue i (setDescriptor i { s.tm.table[i] with state := .selected } s)

/-- The frame that is SELECTED; there is at most one (R109). -/
def selectedFrame (s : State) : Option FrameRef :=
  match s.tm.slot with
  | some f =>
    if f.state = .selected then some .slot
    else (findDescriptor s (·.state == .selected)).map .descriptor
  | none => (findDescriptor s (·.state == .selected)).map .descriptor

/-- The frame that is IN_FLIGHT; there is at most one (R109). -/
def inFlightFrame (s : State) : Option FrameRef :=
  match s.tm.slot with
  | some f =>
    if f.state = .inFlight then some .slot
    else (findDescriptor s (·.state == .inFlight)).map .descriptor
  | none => (findDescriptor s (·.state == .inFlight)).map .descriptor

/-- The SELECTED frame goes back to QUEUED: a descriptor at the head of its class, a slot frame in the slot, unless its removal was held until now (R27, R28, R29). -/
def returnSelected (s : State) : State :=
  match selectedFrame s with
  | some (.descriptor i) => queueAtHead i s
  | some .slot =>
    match s.tm.slot with
    | some f => setSlot (if f.removal then none else some { f with state := .queued }) s
    | none => s
  | none => s

/-- The SELECTED frame goes to IN_FLIGHT and its attempts rises by one; no outcome has been handed (R109, R110). -/
def beginAttempt (s : State) : State :=
  let t : State := { s with tm.handed := none }
  match selectedFrame s with
  | some (.descriptor i) =>
    let d := t.tm.table[i]
    setDescriptor i { d with state := .inFlight, attempts := d.attempts + 1 } t
  | some .slot =>
    match t.tm.slot with
    | some f => setSlot (some { f with state := .inFlight, attempts := f.attempts + 1 }) t
    | none => t
  | none => t

/-! ### The frame in flight (R48) -/

/-- The bytes of the station's own frame (R48, R49). -/
def frameBytes (s : State) : List BusByte :=
  let own := numberByte s.ctl.number
  match inFlightFrame s with
  | some (.descriptor i) =>
    let d := s.tm.table[i]
    buildFrame d.destination own typeData
      (codePayload d.compress (readPayload s.mem.cells d.blocks d.length))
  | some .slot =>
    match s.tm.slot with
    | some f =>
      match f.kind with
      | .hello => buildFrame own own typeHello []
      | .openFrame group tag deadline =>
        buildFrame group own typeOpen ((tag :: bytes16 deadline).map dataByte)
      | .cancelFrame group tag => buildFrame group own typeCancel [dataByte tag]
    | none => []
  | none => []

/-- The byte on offer or awaiting offer (R48, R50). -/
def currentByte (s : State) : Option BusByte := (frameBytes s)[s.fe.sentBytes]?

/-- A first hand-off stands; CLASH displaces STALLED or BROKEN (R110). -/
def handOutcome (o : TxOutcome) (s : State) : State :=
  let handed :=
    match s.tm.handed, o with
    | none, _ => some o
    | some .stalled, .clash => some .clash
    | some .broken, .clash => some .clash
    | some first, _ => some first
  { s with tm.handed := handed }

end Sys2Proof.Machine
end

