-- ==== Sys2Proof/Machine/Reception.lean ====
section
/-! DEFINITION. The receive manager (chapter 7): policy, record slots, storing and expansion, truncation, drops and malformed frames, the end of a frame, the record queue and aged flags. -/

namespace Sys2Proof.Machine

open Sys2Proof

/-! ### Policy and record slots (R123–R127) -/

/-- The policy for a DATA frame, by its ADDRESS (R123). -/
def policyFor (address : Byte) (s : State) : Policy :=
  if isGroupAddress address then (s.ctl.subscriptions[groupOf address]).getD .lenient
  else if address = broadcast then s.ctl.configuration.broadcast
  else s.ctl.configuration.unicast

/-- A slot is free when the queued records, plus one if a slot is reserved, are fewer than 32 (R124). -/
def slotFree (s : State) : Bool :=
  decide (s.rm.records.length + (if s.rm.construction.isSome then 1 else 0) < Config.recordSlots)

/-- Reserve the slot and create the record under construction (R125). -/
def reserveSlot (s : State) : State :=
  { s with
    rm.state := .storing
    rm.construction := some
      { source := s.fe.frame.source.getD 0, address := s.fe.frame.address.getD 0,
        type := typeData, blocks := [], keptLength := 0, fullLength := 0, status := .complete } }

/-- The frame engine asks for a record slot (R123, R125–R127); the receive manager leaves IDLE only here (R122). -/
def requestSlot (s : State) : State :=
  if s.rm.state = .idle then
    let policy := policyFor (s.fe.frame.address.getD 0) s
    let s : State := { s with rm.policy := some policy }
    if slotFree s then reserveSlot s
    else
      match policy with
      | .strict => { s with rm.state := .slotWait }
      | .lenient => { s with rm.state := .dropping }
  else s

/-! ### Storing (R128–R131) -/

/-- Store one copy at the next position of the record's block list (R87, R128). -/
def putCopy (value : Byte) (c : Construction) (s : State) : State :=
  { s with
    mem.cells := writePayload s.mem.cells c.blocks c.keptLength value
    rm.construction := some { c with keptLength := c.keptLength + 1 } }

/-- A block request was refused with this many copies unstored (R129, R131): STRICT waits, except at a LAST byte; otherwise the record becomes TRUNCATED. -/
def requestRefused (value : Byte) (unstored : Nat) (last : Bool) (c : Construction) (s : State) :
    State :=
  if s.rm.policy = some .strict ∧ last = false then
    { s with rm.state := .blockWait, rm.held := some { value := value, count := unstored } }
  else
    { s with
      rm.state := .truncated
      rm.held := none
      rm.construction := some { c with status := .truncated } }

/-- Store the copies of one item one after another, asking for a block before each copy that finds no room (R91, R128). -/
def storeCopies (value : Byte) (last : Bool) : Nat → State → State
  | 0, s => { s with rm.state := .storing, rm.held := none }
  | n + 1, s =>
    match s.rm.construction with
    | none => s
    | some c =>
      if c.keptLength < Config.blockBytes * c.blocks.length then
        storeCopies value last n (putCopy value c s)
      else
        match s.mem.pool with
        | b :: rest =>
          storeCopies value last n
            (putCopy value { c with blocks := c.blocks ++ [b] } { s with mem.pool := rest })
        | [] => requestRefused value (n + 1) last c s

/-- The copy count of a hand-off is added to the full length (R128, R131). -/
def countFull (n : Nat) (s : State) : State :=
  { s with
    rm.construction :=
      s.rm.construction.map (fun c => { c with fullLength := c.fullLength + n }) }

/-- The frame engine hands a data byte with its copy count (R127, R128, R131). -/
def receiveCopies (value : Byte) (n : Nat) (last : Bool) (s : State) : State :=
  match s.rm.state with
  | .storing => storeCopies value last n (countFull n s)
  | .truncated => countFull n s
  | .idle | .slotWait | .blockWait | .malformed | .dropping => s

/-- The frame engine tells that the payload is malformed (R132). -/
def receiveMalformed (s : State) : State :=
  match s.rm.state with
  | .storing | .truncated =>
    { s with
      rm.state := .malformed
      rm.construction := s.rm.construction.map (fun c => { c with status := .malformed }) }
  | .idle | .slotWait | .blockWait | .malformed | .dropping => s

/-- A STRICT participant in BLOCK_WAIT renews its request (R95, R129). -/
def renewRequest (s : State) : State :=
  match s.rm.state, s.rm.held with
  | .blockWait, some h => storeCopies h.value false h.count s
  | _, _ => s

/-- The participant is not ready: it waits for a slot or for a block (R126, R129). -/
def receptionWaits (s : State) : Bool := s.rm.state == .slotWait || s.rm.state == .blockWait

/-! ### The end of a frame (R133–R136) -/

/-- The receive manager returns to IDLE (R122). -/
def receptionIdle (s : State) : State :=
  { s with rm.state := .idle, rm.policy := none, rm.construction := none, rm.held := none }

/-- A record joins the tail of the queue with the next sequence number (R133). -/
def joinRecord (source address : Byte) (status : RecordStatus) (fullLength keptLength : Nat)
    (blocks : List Nat) (s : State) : State :=
  let r : Record :=
    { sequence := s.rm.sequence, source := source, address := address, type := typeData,
      status := status, fullLength := fullLength, keptLength := keptLength,
      completedAt := s.ctl.clock, blocks := blocks, aged := false }
  { s with rm.records := s.rm.records ++ [r], rm.sequence := s.rm.sequence + 1 }

/-- The record under construction is discarded: its blocks join the pool, its slot is given up, no counter moves (R136, R94). It finds nothing waiting. -/
def receptionAbandonment (s : State) : State :=
  returnToPool (constructionBlocks s) (receptionIdle s)

/-- The completion of a DATA frame at an addressed station (R127, R133, R135). In IDLE the frame had LAST on its header byte 3, and its position is still TYPE (R36); of any other frame no slot was asked for, and nothing is kept (log 42). A completion cannot reach SLOT_WAIT or BLOCK_WAIT (R133); the model ends those as an abandonment does (log 20). -/
def receptionCompletion (f : FrameState) (s : State) : State :=
  let full := f.expandedLength.getD 0
  match s.rm.state, s.rm.construction with
  | .storing, some c =>
    receptionIdle (joinRecord c.source c.address .complete full c.keptLength c.blocks s)
  | .truncated, some c =>
    receptionIdle
      (countTruncated (joinRecord c.source c.address .truncated full c.keptLength c.blocks s))
  | .malformed, some c =>
    returnToPool c.blocks
      (receptionIdle (countMalformed (joinRecord c.source c.address .malformed full 0 [] s)))
  | .dropping, _ => receptionIdle (countDropped s)
  | .idle, _ =>
    if f.position ≠ .type then s
    else if slotFree s then
      joinRecord (f.source.getD 0) (f.address.getD 0) .complete 0 0 [] s
    else countDropped s
  | _, _ => receptionAbandonment s

/-! ### FETCH at the receive manager, aged flags (R138, R143, R144) -/

/-- The fourteen bytes of a FETCH result (R181). -/
def fetchBytes (r : Record) : List Byte :=
  [statusCode .ok, r.sequence, r.source, r.address, r.type, recordStatusCode r.status] ++
    bytesOfLength r.fullLength ++ bytesOfLength r.keptLength ++ bytes32 r.completedAt

/-- FETCH at the receive manager (R138): a copy of the head record's fields. -/
def cmdFetch (s : State) : State × Reply :=
  match s.rm.records with
  | [] => (s, statusReply .empty)
  | r :: _ => (s, .result (fetchBytes r))

/-- A record's age: the station clock less its completed-at, modulo 2^32 µs (R143). -/
def recordAge (s : State) (r : Record) : Nat := (s.ctl.clock - r.completedAt).toNat

/-- The age at which a flag is set: the age limit multiplied by 1000 µs (R143). -/
def ageBound (s : State) : Nat := s.ctl.configuration.ageLimit * 1000

/-- Every aged flag is evaluated anew against the age limit (R144). -/
def reevaluateAged (s : State) : State :=
  { s with
    rm.records := s.rm.records.map (fun r =>
      { r with
        aged := decide (s.ctl.configuration.ageLimit ≠ 0) && decide (ageBound s ≤ recordAge s r) }) }

/-- Set the aged flag of the record at a place of the queue. -/
def setAgedAt : Nat → List Record → List Record
  | _, [] => []
  | 0, r :: rest => { r with aged := true } :: rest
  | n + 1, r :: rest => r :: setAgedAt n rest

/-- AGED_FLAG_SET (R143): while the age limit is nonzero the record's flag is set, at the head or not. That its age has come to the limit is what the row says, and is not compared (log 2). -/
def agedFlagSet (place : Nat) (s : State) : State :=
  if s.ctl.configuration.ageLimit = 0 then s
  else { s with rm.records := setAgedAt place s.rm.records }

def execAgedFlagSet (place : Nat) (s : State) : Host.Outcome State Fault Refusal :=
  act (agedFlagSet place) s

end Sys2Proof.Machine
end

