-- ==== Sys2Proof/Machine/Arbitration.lean ====
section
/-! DEFINITION. Arbitration and fairness (chapter 2): the bid, the contest and its decision, the round flag, and the meanings of the arbiter's events. -/

namespace Sys2Proof.Machine

open Sys2Proof

/-! ### The bid (R24, R25) -/

/-- The bid byte of a frame (R24): bit 7 for the system slot, bit 6 for class URGENT, the station number in bits 4–0. -/
def bidByte (f : FrameRef) (s : State) : Byte :=
  let number := numberByte s.ctl.number
  match f with
  | .slot => 0x80 ||| number
  | .descriptor i =>
    match s.tm.table[i].cls with
    | .urgent => 0x40 ||| number
    | .normal => number

/-- The lines a bidder drives (R25): each 1 of its bid above which no line is asserted where the bid has 0. -/
def bidDrive (bid sensed : Byte) : Byte :=
  let against := sensed &&& ~~~bid
  (List.range 8).foldl
    (fun drive k =>
      if bid.getLsbD k && (against >>> (k + 1) == 0) then drive ||| (1#8 <<< k) else drive) 0

/-! ### Opening a window -/

/-- The station requests or joins an arbitration with this frame, all in one action (R21, R22): selection, REQ, the bid on D0–D7 as the levels sensed there allow (R25, log 11), BIDDING, the settle timer. -/
def openWindow (f : FrameRef) (s : State) : State :=
  let bid := bidByte f s
  let s := selectFrame f s
  { s with
    line.drive.req := true
    line.drive.data := bidDrive bid s.line.sense.data
    arb.phase := .bidding
    arb.bid := some bid
    arb.settle := some 0
    arb.roundGap := none }

/-- An arbiter in STANDBY asks for an eligible frame, and requests the bus if there is one (R21). -/
def askArbiter (s : State) : State :=
  if s.arb.phase = .standby then
    match eligibleFrame s with
    | some f => openWindow f s
    | none => s
  else s

/-- Entry into STANDBY (R21): the round gap timer starts from zero and the arbiter asks. On the idle bus no station drives D0–D7 (log 11). -/
def enterStandby (s : State) : State :=
  askArbiter
    { s with
      line.sense.data := 0
      arb.phase := .standby
      arb.bid := none
      arb.settle := none
      arb.roundGap := some 0 }

/-- Entry into OUTSIDE (R20): no bid, both timers stopped. -/
def enterOutside (s : State) : State :=
  { s with
    arb.phase := .outside
    arb.bid := none
    arb.settle := none
    arb.roundGap := none }

/-- A bidder gives up its arbitration: REQ and D0–D7 are released, the frame goes back, OUTSIDE (R27, R29). -/
def giveUpBid (s : State) : State :=
  let s : State := { s with line.drive.req := false, line.drive.data := 0 }
  enterOutside (returnSelected s)

/-- The arbiter is in BIDDING or WON. -/
def isBidding (s : State) : Bool := s.arb.phase == .bidding || s.arb.phase == .won

/-! ### Placing a frame in the slot (R101) -/

/-- Place a frame in the EMPTY slot and tell the arbiter (R101). -/
def placeSlotFrame (kind : SlotKind) (s : State) : State :=
  askArbiter (setSlot (some (SlotFrame.placed kind)) s)

/-- Place a CANCEL for this group and tag, or merge it with one for the tag already there (R69, R76). The slot holds nothing else while a view is WAITING or ARMED (R69). -/
def placeCancel (group tag : Byte) (s : State) : State :=
  match s.tm.slot with
  | none => placeSlotFrame (.cancelFrame group tag) s
  | some _ => s

/-! ### Meanings -/

/-- REQ_SENSED (R22): in STANDBY the station joins with an eligible frame, or enters OUTSIDE. A station that keeps a silence timer runs it from here unless it runs already (R15). -/
def reqSensed (s : State) : State :=
  let s : State :=
    { s with
      line.sense.req := true
      hs.silence :=
        if s.hs.silence.isNone && s.hs.role != .none && !isTalker s && !s.line.sense.brk then some 0
        else s.hs.silence }
  if s.arb.phase = .standby then
    match eligibleFrame s with
    | some f => openWindow f s
    | none => enterOutside s
  else s

def execReqSensed (s : State) : Host.Outcome State Fault Refusal :=
  actOnLine (fun p => { p with req := true }) reqSensed s

/-- BID_LINE_CHANGE (R25): in BIDDING the drive condition is applied again; in any other phase the levels are sensed and nothing follows (log 11). -/
def bidLineChange (d : Byte) (s : State) : State :=
  let s : State := { s with line.sense.data := d }
  match s.arb.phase, s.arb.bid with
  | .bidding, some bid => { s with line.drive.data := bidDrive bid d }
  | _, _ => s

def execBidLineChange (d : Byte) (s : State) : Host.Outcome State Fault Refusal :=
  actOnBus (bidLineChange d) s

/-- ARBITRATION_DECISION (R26, R27): the sample equals the bid and the station has won, or it has lost. -/
def arbitrationDecision (d : Byte) (s : State) : State :=
  match s.arb.phase, s.arb.bid with
  | .bidding, some bid =>
    let s : State := { s with line.sense.data := d }
    if d = bid then { s with arb.phase := .won, line.drive.data := bid } else giveUpBid s
  | _, _ => s

def execArbitrationDecision (d : Byte) (s : State) : Host.Outcome State Fault Refusal :=
  actOnBus (arbitrationDecision d) s

/-- The frame SELECTED is a descriptor of class NORMAL, so the bid was a normal bid (R30). -/
def selectedIsNormal (s : State) : Bool :=
  match selectedFrame s with
  | some (.descriptor i) => s.tm.table[i].cls == .normal
  | _ => false

/-- WON_HOLD_END (R26): OWN is asserted, REQ and the bid released, the station becomes talker, the attempt begins, a normal win sets the round flag, and the frame engine begins the frame. -/
def wonHoldEnd (s : State) : State :=
  if s.arb.phase = .won then
    let flag := s.arb.roundFlag || selectedIsNormal s
    let s := beginAttempt s
    { s with
      line.drive.own := true
      line.drive.req := false
      line.drive.data := 0
      line.drive.pend := false
      line.drive.wait := false
      arb := { phase := .owner, bid := none, settle := none, roundFlag := flag, roundGap := none }
      hs.role := .talker .awaitReady
      hs.stall := some 0
      hs.silence := none
      hs.setUp := none
      hs.window := none
      hs.complete := false
      line.heldFrame := s.line.heldFrame.filter (· != .silence)
      fe := { frame := FrameState.started .talker, sentBytes := 0, comparator := none } }
  else s

def execWonHoldEnd (s : State) : Host.Outcome State Fault Refusal := actOnBus wonHoldEnd s

/-- ROUND_GAP_EXPIRY (R30): in STANDBY the round flag clears and the arbiter asks again; the timer stops until the next entry into STANDBY (R21). -/
def roundGapExpiry (s : State) : State :=
  if s.arb.phase = .standby ∧ s.arb.roundGap.isSome then
    askArbiter { s with arb.roundFlag := false, arb.roundGap := none }
  else s

def execRoundGapExpiry (s : State) : Host.Outcome State Fault Refusal := actOnBus roundGapExpiry s

end Sys2Proof.Machine
end

