-- ==== Sys2Proof/Machine/Rendezvous.lean ====
section
/-! DEFINITION. The rendezvous unit (chapter 4): the view, opening, arming and fire, freeze and cancellation, deadlines, breaks, the outcome queue, and the meanings of its events. -/

namespace Sys2Proof.Machine

open Sys2Proof

/-- Replace the view. -/
def setView (v : View) (s : State) : State := { s with rdv.view := v }

/-- The view holds this group and tag (R71). -/
def viewMatches (group tag : Byte) (v : View) : Bool := v.group == some group && v.tag == some tag

/-- The view is WAITING or ARMED. -/
def viewOpen (v : View) : Bool := v.state == .waiting || v.state == .armed

/-! ### The outcome queue (R85, R86) -/

/-- A record joins the tail; from a full queue the oldest is first removed and counted lost, and a read of it removes nothing any more (R86). -/
def addOutcome (r : OutcomeRecord) (s : State) : State :=
  if s.rdv.outcomes.length < Config.outcomePlaces then
    { s with rdv.outcomes := s.rdv.outcomes ++ [r] }
  else
    countOutcomeLost
      { s with rdv.outcomes := s.rdv.outcomes.drop 1 ++ [r], rdv.reading := false }

/-- The record of the view's rendezvous, ended this way at this time (R65, R72, R74, R80, R82). -/
def viewRecord (v : View) (o : RdvOutcome) (closedAt : ClockTime) : OutcomeRecord :=
  { tag := v.tag.getD 0, group := v.group.getD 0, role := v.role.getD .member, outcome := o,
    reason := none, expiredHere := v.expiredHere, cancelSentHere := v.cancelSentHere,
    openedAt := v.openedAt, closedAt := closedAt }

/-- Close the view in one action: a held TRG is released, the record written, a slot CANCEL for the tag purged, and the view enters NONE (R65, R72, R74, R80, R82). -/
def closeView (o : RdvOutcome) (closedAt : ClockTime) (s : State) : State :=
  let v := s.rdv.view
  setView View.absent (purgeCancel (v.tag.getD 0) (addOutcome (viewRecord v o closedAt) (releaseTrg s)))

/-- A NOT_OPENED record for a slot OPEN that left the slot without opening (R62). -/
def notOpened (group tag : Byte) (reason : NotOpenedReason) (s : State) : State :=
  addOutcome
    { tag := tag, group := group, role := .opener, outcome := .notOpened, reason := some reason,
      expiredHere := false, cancelSentHere := false, openedAt := none, closedAt := s.ctl.clock } s

/-! ### Frame events (R58, R59, R70, R71) -/

/-- The OPEN final byte at the talker, before it asserts OFFER for it (R58). -/
def openFinalAtTalker (address tag : Byte) (deadline : Deadline) (s : State) : State :=
  setView { View.absent with
    state := .provisional, role := some .opener, tag := some tag, group := some address,
    deadline := some deadline } (assertTrg s)

/-- The OPEN final byte taken by a participant or observed by a bystander (R59). TRG is asserted before the byte is offered, so the station senses it (R58, log 8). -/
def openFinalElsewhere (taken : Bool) (address source tag : Byte) (deadline : Deadline)
    (s : State) : State :=
  let s : State := { s with line.sense.trg := true }
  if taken ∧ s.ctl.state = .online ∧ s.rdv.view.state = .none then
    setView { View.absent with
      state := .provisional, role := some .member, tag := some tag, group := some address,
      deadline := some deadline } (assertTrg s)
  else
    { s with rdv.noted := some { address, source, tag, deadline } }

/-- The CANCEL header: a WAITING or ARMED view of that group sets freeze (R70). -/
def cancelHeader (address : Byte) (s : State) : State :=
  let v := s.rdv.view
  if viewOpen v && v.group == some address then setView { v with freeze := true } s else s

/-- The CANCEL final byte: a matching WAITING or ARMED view without fire-pending enters CANCELLING, keeping its TRG drive, freeze and pending-arm (R71). -/
def cancelFinal (atTalker : Bool) (address tag : Byte) (s : State) : State :=
  let v := s.rdv.view
  if viewOpen v && v.fire == .clear && viewMatches address tag v then
    setView { v with state := .cancelling, cancelSentHere := v.cancelSentHere || atTalker } s
  else s

/-! ### The end of a frame (R58, R60, R61, R72, R73) -/

/-- A PROVISIONAL view enters WAITING at the completion of its OPEN (R58, R60), and a nonzero deadline starts the timer (R75). -/
def viewOpened (v : View) (now : ClockTime) : View :=
  { v with
    state := .waiting, openedAt := some now, freeze := false, pendingArm := false,
    expiredHere := false, cancelSentHere := false,
    timer := if v.deadline.getD 0 = 0 then none else some 0 }

/-- A QUEUED OPEN of this station is discarded when another station's OPEN completes (R60, R117). -/
def discardLostOpen (s : State) : State :=
  match s.tm.slot with
  | some f =>
    match f.state, f.kind with
    | .queued, .openFrame group tag _ => notOpened group tag .lost (setSlot none s)
    | _, _ => s
  | none => s

/-- The completion of a well-formed OPEN (R58, R60). -/
def openCompletion (s : State) : State :=
  let v := s.rdv.view
  let s :=
    if v.state = .provisional then setView (viewOpened v s.ctl.clock) s
    else
      match s.rdv.noted with
      | some n =>
        if v.state = .none then
          setView { View.absent with
            state := .observing, tag := some n.tag, group := some n.address, tagKnown := true } s
        else s
      | none => s
  discardLostOpen { s with rdv.noted := none }

/-- The abandonment of an OPEN (R61): a PROVISIONAL view releases TRG and returns to NONE, a noted open is dropped. -/
def openAbandoned (s : State) : State :=
  let s : State := { s with rdv.noted := none }
  if s.rdv.view.state = .provisional then setView View.absent (releaseTrg s) else s

/-- A CANCELLING view returns to WAITING if it drives TRG, to ARMED if it does not (R73). -/
def viewReturned (drivesTrg : Bool) (v : View) : View :=
  if v.state = .cancelling then
    { v with state := if drivesTrg then .waiting else .armed, cancelSentHere := false }
  else v

/-- A pending-arm is applied: the view enters ARMED and TRG is released (R73). -/
def applyPendingArm (s : State) : State :=
  let v := s.rdv.view
  if v.state = .waiting ∧ v.pendingArm then
    setView { v with state := .armed, pendingArm := false } (releaseTrg s)
  else s

/-- The automatic CANCEL of an expiry that came while the view was CANCELLING (R73, R76). -/
def placeDeferredCancel (s : State) : State :=
  let v := s.rdv.view
  if viewOpen v ∧ v.expiredCancelling then
    placeCancel (v.group.getD 0) (v.tag.getD 0) (setView { v with expiredCancelling := false } s)
  else s

/-- A CANCEL frame ends without closing the view (R73). -/
def liftFreeze (s : State) : State :=
  let v := viewReturned s.line.drive.trg s.rdv.view
  if viewOpen v then
    placeDeferredCancel (applyPendingArm (setView { v with freeze := false } s))
  else s

/-- The completion of a well-formed CANCEL (R72, R73, R84). -/
def cancelCompletion (address tag : Byte) (s : State) : State :=
  let v := s.rdv.view
  match v.state with
  | .cancelling => closeView .cancelled s.ctl.clock s
  | .observing => if !v.tagKnown || viewMatches address tag v then setView View.absent s else s
  | .waiting | .armed => liftFreeze s
  | .none | .provisional => s

/-- The end of a completed frame, as the rendezvous unit sees it (R54). A malformed OPEN changes no view (R61), and a noted open ends with its frame (R55). -/
def rendezvousCompletion (f : FrameState) (s : State) : State :=
  if f.type = some typeOpen then
    if endVerdict f = some .good then openCompletion s else { s with rdv.noted := none }
  else if f.type = some typeCancel then
    if endVerdict f = some .good then cancelCompletion (f.address.getD 0) (f.tag.getD 0) s
    else liftFreeze s
  else s

/-- The end of an abandoned frame, as the rendezvous unit sees it (R54). -/
def rendezvousAbandonment (f : FrameState) (s : State) : State :=
  if f.type = some typeOpen then openAbandoned s
  else if f.type = some typeCancel then liftFreeze s
  else s

/-- A slot CANCEL whose attempt ends NO_LISTENER closes the view at its own station (R74). -/
def closeNoListener (tag : Byte) (s : State) : State :=
  let v := s.rdv.view
  if (viewOpen v || v.state == .cancelling) && v.tag == some tag then
    closeView .cancelled s.ctl.clock (setView { v with cancelSentHere := true } s)
  else s

/-! ### Arming and fire (R63–R66) -/

/-- What ARM finds (R63). -/
inductive ArmResult where
  | arms | defers | refused
  deriving DecidableEq, Repr

/-- The table of R63, by the view and the TRG drive. -/
def armResult (s : State) : ArmResult :=
  let v := s.rdv.view
  match v.state with
  | .waiting => if v.closing then .refused else if v.freeze then .defers else .arms
  | .cancelling => if s.line.drive.trg then .defers else .refused
  | _ => .refused

/-- The effect of ARM or of an edge on the ARM pin (R63, R64). -/
def applyArm (s : State) : State :=
  let v := s.rdv.view
  match armResult s with
  | .arms => setView { v with state := .armed } (releaseTrg s)
  | .defers => setView { v with pendingArm := true } s
  | .refused => s

/-- The station fires (R65): FIRE goes high, FIRED is written with the sensed time of the release, a slot CANCEL is purged, the view enters NONE. -/
def fire (sensedAt : ClockTime) (s : State) : State :=
  closeView .fired sensedAt { s with rdv.firePulse := some 0 }

/-! ### The host's commands OPEN, ARM, CANCEL and OUTCOME -/

/-- OPEN at the rendezvous unit (R57). -/
def cmdOpen (group tag deadlineHigh deadlineLow : Byte) (s : State) : State × Reply :=
  if s.ctl.state ≠ .online then (s, statusReply .badState)
  else if !isRendezvousAddress group then (s, statusReply .badParam)
  else if s.rdv.view.state ≠ .none ∨ s.tm.slot.isSome then (s, statusReply .rdvBusy)
  else (placeSlotFrame (.openFrame group tag (word16 deadlineHigh deadlineLow)) s, statusReply .ok)

/-- ARM at the rendezvous unit (R63). -/
def cmdArm (s : State) : State × Reply :=
  if s.ctl.state ≠ .online then (s, statusReply .badState)
  else
    match armResult s with
    | .arms => (applyArm s, statusReply .ok)
    | .defers => (applyArm s, statusReply .deferred)
    | .refused => (s, statusReply .badState)

/-- CANCEL at the rendezvous unit (R69). -/
def cmdCancel (s : State) : State × Reply :=
  let v := s.rdv.view
  if s.ctl.state ≠ .online then (s, statusReply .badState)
  else if !viewOpen v || v.closing then (s, statusReply .notMember)
  else (placeCancel (v.group.getD 0) (v.tag.getD 0) s, statusReply .ok)

/-- The fifteen bytes of an OUTCOME result (R182). -/
def outcomeBytes (r : OutcomeRecord) : List Byte :=
  [statusCode .ok, r.tag, r.group, rdvRoleCode r.role, rdvOutcomeCode r.outcome,
    notOpenedCode r.reason,
    (if r.expiredHere then 0x01 else 0x00) ||| (if r.cancelSentHere then 0x02 else 0x00)] ++
  bytes32 (r.openedAt.getD 0) ++ bytes32 r.closedAt

/-- OUTCOME at the rendezvous unit (R86): a copy of the oldest record. -/
def cmdOutcome (s : State) : State × Reply :=
  match s.rdv.outcomes with
  | [] => (s, statusReply .empty)
  | r :: _ => ({ s with rdv.reading := true }, .result (outcomeBytes r))

/-- The last byte of an OUTCOME result is read: the record is removed, unless it was dropped while it was being read (R86). -/
def outcomeRead (s : State) : State :=
  if s.rdv.reading then
    { s with rdv.outcomes := s.rdv.outcomes.drop 1, rdv.reading := false }
  else s

/-! ### Meanings -/

/-- ARM_PIN_EDGE (R64), in any station state; ignored while a soft reset is in progress (R163). -/
def armPinEdge (s : State) : State := if s.ctl.resetInProgress then s else applyArm s

def execArmPinEdge (s : State) : Host.Outcome State Fault Refusal := act armPinEdge s

/-- TRG_RELEASE_SENSED (R65–R67): an ARMED view without closing sets fire-pending, held at once if BRK is sensed asserted (R66); an OBSERVING view enters NONE. The delay of R68 runs from here. -/
def trgReleaseSensed (s : State) : State :=
  let s : State := { s with line.sense.trg := false, line.trgDelay := some 0 }
  let v := s.rdv.view
  match v.state with
  | .armed =>
    if v.closing || v.fire != .clear then s
    else
      setView { v with
        fire := if s.line.sense.brk then .held s.ctl.clock else .pending s.ctl.clock 0 } s
  | .observing => setView View.absent s
  | .none | .provisional | .waiting | .cancelling => s

def execTrgReleaseSensed (s : State) : Host.Outcome State Fault Refusal :=
  actOnLine (fun p => { p with trg := false }) trgReleaseSensed s

/-- FIRE_DELAY_END (R65): no BRK edge came within the 200 ns, and the station fires. -/
def fireDelayEnd (s : State) : State :=
  match s.rdv.view.fire with
  | .pending sensedAt _ => fire sensedAt s
  | .held _ | .clear => s

def execFireDelayEnd (s : State) : Host.Outcome State Fault Refusal := actOnBus fireDelayEnd s

/-- FIRE_PULSE_END (R56, R65): the pulse has run its 1 µs and FIRE is driven low. A pulse begun anew before runs on. -/
def firePulseEnd (s : State) : State :=
  if reached s.rdv.firePulse Config.firePulse then { s with rdv.firePulse := none } else s

def execFirePulseEnd (s : State) : Host.Outcome State Fault Refusal := act firePulseEnd s

/-- DEADLINE_EXPIRY (R76, R195): a running deadline timer stops and expired-here is set; the automatic CANCEL depends on the view. -/
def deadlineExpiry (s : State) : State :=
  let v := s.rdv.view
  if v.timer.isNone then s
  else
    let expired : View := { v with timer := none, expiredHere := true }
    match v.state with
    | .waiting | .armed =>
      if v.fire = .clear then
        placeCancel (v.group.getD 0) (v.tag.getD 0) (setView expired s)
      else setView expired s
    | .cancelling => setView { expired with expiredCancelling := true } s
    | .none | .provisional | .observing => setView expired s

def execDeadlineExpiry (s : State) : Host.Outcome State Fault Refusal := act deadlineExpiry s

/-! ### Breaks and station states (R79–R82, R84) -/

/-- The break edge reaches a view with fire-pending: the fire is held (R66). -/
def holdFire (s : State) : State :=
  let v := s.rdv.view
  match v.fire with
  | .pending sensedAt _ => setView { v with fire := .held sensedAt } s
  | .held _ | .clear => s

/-- The classification of a clear break (R79). -/
def closingSet (s : State) : State :=
  let v := s.rdv.view
  match v.state with
  | .waiting | .armed =>
    purgeCancel (v.tag.getD 0) (setView { v with closing := true, fire := .clear, timer := none } s)
  | .observing => setView View.absent s
  | .none | .provisional | .cancelling => s

/-- The sensed release of BRK (R66, R80): a view with closing set closes BROKEN; a fire held across a frame break is carried out. -/
def breakReleasedAtView (s : State) : State :=
  let v := s.rdv.view
  if v.closing then closeView .broken s.ctl.clock s
  else
    match v.fire with
    | .held sensedAt => fire sensedAt s
    | .pending _ _ | .clear => s

/-- The view at an entry into OFFLINE or FAULTED (R82); FIRE is low there (R56). -/
def viewLeavesBus (s : State) : State :=
  let s : State := { s with rdv.noted := none, rdv.firePulse := none }
  match s.rdv.view.state with
  | .waiting | .armed | .cancelling => closeView .broken s.ctl.clock s
  | .none | .provisional | .observing => setView View.absent s

/-- The view at the beginning of participation: OBSERVING with tag-known clear if TRG is sensed asserted (R84). -/
def observeAtJoin (s : State) : State :=
  if s.line.sense.trg then setView { View.absent with state := .observing } s else s

end Sys2Proof.Machine
end

