-- ==== Sys2Proof/Machine/Participation.lean ====
section
/-! DEFINITION. The participant's and bystander's side of the handshake (R5, R6, R9–R13): taking and observing a byte, readiness, narrowing, the end of a frame, freeings handed to a waiting participant, and the meanings of these events. -/

namespace Sys2Proof.Machine

open Sys2Proof

/-! ### What the frame engine hands on (R40, R41, R43, R44) -/

/-- A byte parsed into the frame state, with its event. -/
def parseNext (b : BusByte) (s : State) : State × FrameEvent :=
  let r := parseByte s.ctl.number s.ctl.subscriptions b s.fe.frame
  ({ s with fe.frame := r.1 }, r.2)

/-- What a participant hands on at a byte it took (R40): DATA to the receive manager when the frame is addressed, OPEN and CANCEL events to the rendezvous unit. -/
def handTaken (e : FrameEvent) (s : State) : State :=
  match e with
  | .nothing => s
  | .copies value count last =>
    if s.fe.frame.addressed = some true then receiveCopies value count last s else s
  | .malformed =>
    if s.fe.frame.addressed = some true then receiveMalformed s else s
  | .cancelHeader address => cancelHeader address s
  | .openFinal address source tag deadline => openFinalElsewhere true address source tag deadline s
  | .cancelFinal address tag => cancelFinal false address tag s

/-- What a bystander hands on at a byte it observed (R40, R41): no byte goes to the receive manager. -/
def handObserved (e : FrameEvent) (s : State) : State :=
  match e with
  | .nothing | .copies _ _ _ | .malformed => s
  | .cancelHeader address => cancelHeader address s
  | .openFinal address source tag deadline => openFinalElsewhere false address source tag deadline s
  | .cancelFinal address tag => cancelFinal false address tag s

/-! ### Taking and observing (R2, R9, R53) -/

/-- OFFER is sensed asserted and D0–D7, KIND and LAST are sampled (R2); the silence timer starts again (R15). -/
def sampleOffer (b : BusByte) (s : State) : State :=
  restartSilence
    { s with
      line.sense.offer := true
      line.sense.data := b.data
      line.sense.kind := b.kind
      line.sense.last := b.last
      line.observed := some b }

/-- A duplicate SOURCE (R53): PEND and WAIT stay asserted, HOLDING, a frame break, one duplicate counted. -/
def holdDuplicate (s : State) : State :=
  requestFrameBreak .duplicate (handDuplicate { s with hs.role := .participant .holding })

/-- The participant takes the byte (R9): into the latch, WAIT asserted, PEND released unless the SOURCE check stops the take (R53), and the frame engine passes it on (R40). -/
def takeByte (b : BusByte) (s : State) : State :=
  let duplicate := isDuplicateSource s.ctl.number b s.fe.frame
  let s : State :=
    { s with
      hs.latch := some { byte := b, position := s.fe.frame.position }
      line.drive.wait := true }
  if duplicate then holdDuplicate s
  else
    let r := parseNext b s
    handTaken r.2 { r.1 with line.drive.pend := false, hs.role := .participant .taken }

/-- TAKE (R9): in READY the byte is taken; in PREPARING the offer is kept until the participant is ready. -/
def take (b : BusByte) (s : State) : State :=
  match s.hs.role with
  | .participant .ready => takeByte b (sampleOffer b s)
  | .participant .preparing => sampleOffer b s
  | _ => s

def execTake (b : BusByte) (s : State) : Host.Outcome State Fault Refusal := actOnBus (take b) s

/-- OBSERVE (R2, R4, R33, R40): a bystander parses the observed byte, and so does a station in NONE, where a frame may have begun while BRK was asserted (log 42). In TAKEN and HOLDING, and at the talker, the byte is sampled only (log 15). -/
def observe (b : BusByte) (s : State) : State :=
  match s.hs.role with
  | .participant .ready | .participant .preparing => s
  | .bystander | .none =>
    let r := parseNext b (sampleOffer b s)
    handObserved r.2 r.1
  | .participant .taken | .participant .holding | .talker _ => sampleOffer b s

def execObserve (b : BusByte) (s : State) : Host.Outcome State Fault Refusal :=
  actOnBus (observe b) s

/-! ### Readiness (R10) -/

/-- The participant is ready for a new byte (R10): a byte that carried LAST waits for the frame to be decided, and the receive manager must not be waiting. A byte that belongs to no frame is accepted at once (R33). -/
def isReady (s : State) : Bool :=
  !receptionWaits s &&
    (s.fe.frame.position == .none ||
      match s.hs.latch with
      | some l => !l.byte.last
      | none => true)

/-- A participant in PREPARING that is ready releases WAIT and enters READY, or takes the byte that is already on offer (R9, R10). That an offer withdrawn before is not taken is the model's choice (log 38). -/
def becomeReady (s : State) : State :=
  if s.hs.role = .participant .preparing ∧ isReady s then
    match s.line.sense.offer, s.line.observed with
    | true, some b => takeByte b s
    | _, _ => { s with line.drive.wait := false, hs.role := .participant .ready }
  else s

/-- Freed blocks join the pool, and the freeing is handed to the receive manager: a refused request is renewed and the participant may become ready (R88, R95). That the renewed request is taken in the action of the freeing, so that no SEND comes between the two, is the model's choice (R92, log 40). -/
def freeBlocks (blocks : List Nat) (s : State) : State :=
  match blocks with
  | [] => s
  | _ :: _ => becomeReady (renewRequest (returnToPool blocks s))

/-- The head record is removed: its blocks are freed and its slot is free for a participant in SLOT_WAIT (R126, R138, R141). -/
def removeHeadRecord (s : State) : State :=
  match s.rm.records with
  | [] => s
  | r :: rest =>
    let s := freeBlocks r.blocks { s with rm.records := rest }
    if s.rm.state = .slotWait then becomeReady (reserveSlot s) else s

/-! ### Narrowing and the withdrawal of an offer (R6, R10, R11, R38) -/

/-- The byte in the latch is header byte 3 of a frame that has a payload (R6, R10). -/
def latchOpensPayload (s : State) : Bool :=
  match s.hs.latch with
  | some l => l.position == .type && !l.byte.last
  | none => false

/-- The narrowing decision at a participant (R6, R38): it stays, and for a DATA frame a record slot is asked for, or it becomes a bystander. -/
def narrow (s : State) : State :=
  if s.fe.frame.addressed = some true then
    let s : State := { s with fe.frame.standing := some .participant }
    becomeReady (if s.fe.frame.type = some typeData then requestSlot s else s)
  else
    { s with
      fe.frame.standing := some .bystander
      line.drive.wait := false
      line.drive.pend := false
      hs.role := .bystander }

/-- A participant in TAKEN senses OFFER released (R10): PEND is reasserted, then narrowing or readiness. -/
def releaseTaken (s : State) : State :=
  let s : State := { s with line.drive.pend := true, hs.role := .participant .preparing }
  if latchOpensPayload s && s.fe.frame.position != .none then
    narrow s
  else becomeReady s

/-- The abandonment is handed to the receive manager, when its state is not IDLE, and to the rendezvous unit (R54, R136). -/
def handAbandonment (s : State) : State :=
  let f := s.fe.frame
  let s := if s.rm.state = .idle then s else receptionAbandonment s
  rendezvousAbandonment f s

/-- The frame state returns to no frame in progress (R33, R54); the completion window is closed. -/
def endFrameState (s : State) : State :=
  { s with fe.frame := FrameState.absent, hs.window := none }

/-- The frame in progress, if any, is abandoned at the station (R12, R17). -/
def abandonFrame (s : State) : State :=
  if s.fe.frame.position = .none then endFrameState s else endFrameState (handAbandonment s)

/-- A LAST byte was withdrawn: the guard runs (R16), and in a frame in progress the completion window opens (R11). In NONE BRK is sensed asserted, so the window fails where it opens and the frame is abandoned (R11, log 42). -/
def lastWithdrawn (s : State) : State :=
  let s : State := { s with line.guard := some 0 }
  if s.fe.frame.position = .none then s
  else
    match s.hs.role with
    | .talker _ => s
    | .none => abandonFrame s
    | .participant _ | .bystander => { s with hs.window := some 0 }

/-- The byte sampled on the latest offer carried LAST. -/
def observedLast (s : State) : Bool :=
  match s.line.observed with
  | some b => b.last
  | none => false

/-- OFFER_RELEASE_SENSED (R10, R11, R15, R16): a participant in TAKEN goes on; in HOLDING nothing changes (R4); after a LAST byte the window and the guard start. -/
def offerReleaseSensed (s : State) : State :=
  let s := restartSilence { s with line.sense.offer := false }
  match s.hs.role with
  | .participant .holding => s
  | .participant .taken =>
    releaseTaken (if observedLast s then lastWithdrawn s else s)
  | _ => if observedLast s then lastWithdrawn s else s

def execOfferReleaseSensed (s : State) : Host.Outcome State Fault Refusal :=
  actOnBus offerReleaseSensed s

/-! ### The beginning of a frame (R6, R33) -/

/-- OWN_ASSERTION_SENSED (R6, R15, R27, R33): the frame state begins at a participating station; a bidder has lost; a frame already in progress goes on. -/
def ownAssertionSensed (s : State) : State :=
  let s : State := { s with line.sense.own := true }
  if frameInProgress s || !participates s then s
  else
    let s :=
      match s.arb.phase with
      | .bidding => giveUpBid s
      | .standby => enterOutside s
      | _ => s
    { s with
      fe.frame := FrameState.started .participant
      hs.window := none
      hs.silence := if s.hs.role = .none then none else some 0
      line.heldFrame := s.line.heldFrame.filter (· != .silence) }

def execOwnAssertionSensed (s : State) : Host.Outcome State Fault Refusal :=
  actOnLine (fun p => { p with own := true }) ownAssertionSensed s

/-! ### The end of a frame at a station other than its talker (R11, R12, R54) -/

/-- The completion is handed to the receive manager, when the frame is DATA and addressed, and to the rendezvous unit (R54). -/
def handCompletion (s : State) : State :=
  let f := s.fe.frame
  let s :=
    if f.type = some typeData ∧ f.addressed = some true then receptionCompletion f s else s
  rendezvousCompletion f s

/-- The frame completes at a participant or bystander (R11): the completion is handed on, a bystander returns to rest, a participant becomes ready. -/
def completeElsewhere (s : State) : State :=
  let s := endFrameState (handCompletion s)
  match s.hs.role with
  | .bystander => restAsParticipant s
  | _ => becomeReady s

/-- OWN sensed released before the frame completes abandons it, and the role returns to READY (R12). -/
def ownReleased (s : State) : State :=
  if s.fe.frame.position != .none && !isTalker s then
    let s := abandonFrame s
    match s.hs.role with
    | .participant _ | .bystander => restAsParticipant s
    | _ => s
  else s

/-- OWN_RELEASE_SENSED (R12, R15): the frame in progress is abandoned; with REQ released too the silence timer stops. -/
def ownReleaseSensed (req : Bool) (s : State) : State :=
  let s := ownReleased { s with line.sense.own := false, line.sense.req := req }
  if req then s else stopSilence s

def execOwnReleaseSensed (req : Bool) (s : State) : Host.Outcome State Fault Refusal :=
  actOnLine (fun p => { p with own := false, req := req }) (ownReleaseSensed req) s

/-- BUS_IDLE_SENSED (R21): OWN, REQ and BRK are sensed released; an arbiter in OUTSIDE, WON or BIDDING enters STANDBY and asks. The frame of a bid given up here goes back as at a loss (R27, R28), which is the model's choice (log 34). While the measured assertion of BRK lasts the bus is not idle. -/
def busIdleSensed (s : State) : State :=
  if s.line.sense.brk then s
  else
    let s := ownReleaseSensed false s
    match s.arb.phase with
    | .outside => enterStandby s
    | .bidding | .won => enterStandby (giveUpBid s)
    | .off | .standby | .owner => s

def execBusIdleSensed (s : State) : Host.Outcome State Fault Refusal :=
  actOnLine (fun p => { p with own := false, req := false, brk := false }) busIdleSensed s

/-! ### SILENCE TIMER (R15) -/

/-- SILENCE_TIMER_EXPIRY (R15): a silence timer reaches its limit and the station begins a frame break. An edge of OFFER taken first has started the timer again, and no break is begun. -/
def silenceTimerExpiry (s : State) : State :=
  if reached s.hs.silence (silenceBound s) then requestFrameBreak .silence s else s

def execSilenceTimerExpiry (s : State) : Host.Outcome State Fault Refusal :=
  actOnBus silenceTimerExpiry s

end Sys2Proof.Machine
end

