-- ==== Sys2Proof/Machine/Attempt.lean ====
section
/-! DEFINITION. Attempts and their outcomes (R109–R118), and the talker's side of a frame: offers, withdrawals, readback, completion, the OWN hold, the stall timer (R3, R7, R8, R11, R14, R48–R51), with the meanings of these events. -/

namespace Sys2Proof.Machine

open Sys2Proof

/-! ### The end of a descriptor's attempt (R112, R113) -/

/-- A descriptor is finished: DONE with its outcome and time, at the tail of the completion list, its blocks back in the pool (R112). -/
def finishDescriptor (i : Fin 16) (o : TxOutcome) (s : State) : State :=
  let d := s.tm.table[i]
  let s := setDescriptor i
    { d with
      state := .done, outcome := some o, completedAt := some s.ctl.clock, blocks := [] } s
  freeBlocks d.blocks { s with tm.completion := s.tm.completion ++ [i] }

/-- A STALLED or BROKEN attempt is tried again while attempts is at most the retry limit (R113, R115). -/
def mayRetry (attempts : Nat) (s : State) : Bool :=
  decide (attempts ≤ s.ctl.configuration.retryLimit)

/-- The end of a descriptor's attempt (R112, R113). -/
def endDescriptorAttempt (i : Fin 16) (o : TxOutcome) (s : State) : State :=
  match o with
  | .sent | .noListener | .clash => finishDescriptor i o s
  | .stalled | .broken =>
    if mayRetry s.tm.table[i].attempts s then queueAtHead i s else finishDescriptor i o s

/-! ### The end of a slot frame's attempt (R115–R119) -/

/-- A HELLO has joined the station (R151); while a soft reset is in progress no station state changes (R163). -/
def stationJoined (s : State) : State :=
  if s.ctl.resetInProgress then s
  else
    handStation .joined
      { s with ctl.state := .online, ctl.joinPhase := none, ctl.leaveRequested := false }

/-- An entry into FAULTED waits for the release of BRK (R52, R152); while a soft reset is in progress none is made (R163). -/
def awaitFault (reason : StationReason) (s : State) : State :=
  if s.ctl.resetInProgress then s else { s with ctl.pendingFault := some reason }

/-- The end of a HELLO's attempt (R116); atSource tells that the SOURCE byte was on offer at the break edge (R152). -/
def endHello (f : SlotFrame) (o : TxOutcome) (atSource : Bool) (s : State) : State :=
  match o with
  | .sent | .noListener => stationJoined (setSlot none s)
  | .clash => setSlot none s
  | .stalled | .broken =>
    if o = .broken ∧ atSource then awaitFault .duplicate (setSlot none s)
    else if mayRetry f.attempts s then setSlot (some { f with state := .queued }) s
    else awaitFault .noJoin (setSlot none s)

/-- The end of an OPEN's attempt (R117, R62). -/
def endOpen (f : SlotFrame) (group tag : Byte) (o : TxOutcome) (s : State) : State :=
  match o with
  | .sent => setSlot none s
  | .noListener => notOpened group tag .noMembers (setSlot none s)
  | .clash => notOpened group tag .attempts (setSlot none s)
  | .stalled | .broken =>
    if mayRetry f.attempts s then setSlot (some { f with state := .queued }) s
    else notOpened group tag .attempts (setSlot none s)

/-- The end of a CANCEL's attempt (R118, R74, R78). -/
def endCancel (f : SlotFrame) (tag : Byte) (o : TxOutcome) (s : State) : State :=
  match o with
  | .sent | .clash => setSlot none s
  | .noListener => closeNoListener tag (setSlot none s)
  | .stalled | .broken =>
    if mayRetry f.attempts s then setSlot (some { f with state := .queued }) s
    else requestClearBreak (setSlot none s)

/-- The end of the slot frame's attempt; with its removal request set the slot empties whatever the outcome, and nothing further follows (R119, R154). -/
def endSlotAttempt (f : SlotFrame) (o : TxOutcome) (atSource : Bool) (s : State) : State :=
  if f.removal then setSlot none s
  else
    match f.kind with
    | .hello => endHello f o atSource s
    | .openFrame group tag _ => endOpen f group tag o s
    | .cancelFrame _ tag => endCancel f tag o s

/-- An attempt ends with this outcome (R111); no outcome stays handed. -/
def endAttempt (o : TxOutcome) (atSource : Bool) (s : State) : State :=
  let t : State := { s with tm.handed := none }
  match inFlightFrame s with
  | some (.descriptor i) => endDescriptorAttempt i o t
  | some .slot =>
    match s.tm.slot with
    | some f => endSlotAttempt f o atSource t
    | none => t
  | none => t

/-! ### The talker's bytes (R3, R7, R48, R50) -/

/-- Stop driving D0–D7, KIND and LAST. -/
def releaseByte (s : State) : State :=
  { s with line.drive.data := 0, line.drive.kind := false, line.drive.last := false }

/-- The talker's stall timer has expired in this wait, so the changes of WAIT and PEND have no further effect (R14). In AWAIT_READY and OFFERED it runs unless it has expired (log 19); a CLASH that displaces STALLED (R110) does not take the expiry back. -/
def hasStalled (s : State) : Bool := s.hs.stall.isNone

/-- What the talker hands at a byte it supplies (R41): the events come from the frame it builds. -/
def handOffered (e : FrameEvent) (s : State) : State :=
  match e with
  | .cancelHeader address => cancelHeader address s
  | .openFinal address _ tag deadline => openFinalAtTalker address tag deadline s
  | .cancelFinal address tag => cancelFinal true address tag s
  | .nothing | .copies _ _ _ | .malformed => s

/-- The frame engine supplies a byte of its own frame: its frame state follows and the byte's event is handed, before OFFER is asserted for it (R41, R50, log 36). -/
def supplyByte (b : BusByte) (s : State) : State :=
  let r := parseNext b s
  handOffered r.2 r.1

/-- TALKER_READY_SENSED (R7, R3, R41): in AWAIT_READY with WAIT released and PEND asserted the frame engine supplies the next byte and hands its event, and the byte is driven for its set-up time. -/
def talkerReadySensed (s : State) : State :=
  let s : State := { s with line.sense.wait := false, line.sense.pend := true }
  match s.hs.role, currentByte s with
  | .talker .awaitReady, some b =>
    if s.hs.setUp.isSome || hasStalled s then s
    else
      supplyByte b
        { s with
          line.drive.data := b.data
          line.drive.kind := b.kind
          line.drive.last := b.last
          hs.setUp := some 0 }
  | _, _ => s

def execTalkerReadySensed (s : State) : Host.Outcome State Fault Refusal :=
  actOnBus talkerReadySensed s

/-- OFFER_ASSERT (R3, R7, R50): after the set-up OFFER is asserted, the comparator holds the byte, and the wait for PEND begins under a new stall timer (R14). -/
def offerAssert (s : State) : State :=
  match s.hs.role, s.hs.setUp, currentByte s with
  | .talker .awaitReady, some _, some b =>
    if hasStalled s then s
    else
      { s with
        line.drive.offer := true
        hs.role := .talker .offered
        hs.setUp := none
        hs.stall := some 0
        fe.comparator := some b }
  | _, _, _ => s

def execOfferAssert (s : State) : Host.Outcome State Fault Refusal := actOnBus offerAssert s

/-- PEND_RELEASE_SENSED (R7, R11): in OFFERED the byte is withdrawn, and the talker senses the release of OFFER it makes (log 23); after a LAST byte the talker enters CLOSING and its completion window opens, with the guard of R16, else it awaits the next byte. -/
def pendReleaseSensed (s : State) : State :=
  let s : State := { s with line.sense.pend := false }
  match s.hs.role, currentByte s with
  | .talker .offered, some b =>
    if hasStalled s then s
    else
      let s : State :=
        { s with line.drive.offer := false, line.sense.offer := false, fe.comparator := none }
      if b.last then
        { s with
          hs.role := .talker .closing
          hs.stall := none
          hs.window := some 0
          line.guard := some 0 }
      else
        { s with
          hs.role := .talker .awaitReady
          hs.stall := some 0
          fe.sentBytes := s.fe.sentBytes + 1 }
  | _, _ => s

def execPendReleaseSensed (s : State) : Host.Outcome State Fault Refusal :=
  actOnBus pendReleaseSensed s

/-! ### The ends of an attempt at the talker -/

/-- The talker returns to rest and releases OWN; its arbiter leaves OWNER for OUTSIDE (R8, R11, R26). -/
def leaveTalker (s : State) : State :=
  let s : State :=
    { s with
      line.drive.own := false
      hs.stall := none
      hs.setUp := none
      hs.window := none
      hs.complete := false
      fe.comparator := none }
  enterOutside (resumeSilence (restAsParticipant s))

/-- NO_LISTENER (R8): a talker in AWAIT_READY finds WAIT and PEND both released, and the attempt ends without a break. An outcome handed before is the one it ends with (R110), here and now (log 35). -/
def noListener (s : State) : State :=
  let s : State := { s with line.sense.wait := false, line.sense.pend := false }
  match s.hs.role with
  | .talker .awaitReady =>
    if hasStalled s then s
    else
      let s := endFrameState (handAbandonment (releaseByte s))
      leaveTalker (endAttempt (s.tm.handed.getD .noListener) false s)
  | _ => s

def execNoListener (s : State) : Host.Outcome State Fault Refusal := actOnBus noListener s

/-- The frame completes at its talker (R11, R58, R72, R111): the outcome takes effect, SENT unless one was handed before (R110, log 35), the rendezvous unit gets the completion, D0–D7, KIND and LAST are released, OWN stays. -/
def completeAtTalker (s : State) : State :=
  let f := s.fe.frame
  let s := rendezvousCompletion f (endAttempt (s.tm.handed.getD .sent) false s)
  let s := releaseByte s
  { s with fe.frame := FrameState.absent, fe.comparator := none, hs.complete := true }

/-- COMPLETION_WINDOW_END (R11): the window passed without a break and without the loss of OWN. -/
def completionWindowEnd (s : State) : State :=
  if s.hs.window.isNone then s
  else
    match s.hs.role with
    | .talker .closing => if s.hs.complete then s else completeAtTalker s
    | .talker _ => s
    | _ => completeElsewhere s

def execCompletionWindowEnd (s : State) : Host.Outcome State Fault Refusal :=
  actOnBus completionWindowEnd s

/-- OWN_HOLD_END (R11): the talker of a complete frame releases OWN, asserts PEND and enters READY. -/
def ownHoldEnd (s : State) : State :=
  if s.hs.role = .talker .closing ∧ s.hs.complete then leaveTalker s else s

def execOwnHoldEnd (s : State) : Host.Outcome State Fault Refusal := actOnBus ownHoldEnd s

/-- The stall timer is at its limit in a wait that goes on (R14). The change of WAIT and PEND that starts the set-up of a byte has ended the wait in AWAIT_READY, although the timer stops at the offer only (log 19). -/
def stallExpires (s : State) : Bool := reached s.hs.stall (stallBound s) && s.hs.setUp.isNone

/-- STALL_TIMER_EXPIRY (R14): the timer reaches its limit in AWAIT_READY or OFFERED; the talker hands STALLED and begins a frame break. A change of WAIT or PEND taken first has ended the wait, and the timer is below its limit in the next one. -/
def stallTimerExpiry (s : State) : State :=
  if stallExpires s then
    match s.hs.role with
    | .talker .awaitReady | .talker .offered =>
      requestFrameBreak .stall (handOutcome .stalled { s with hs.stall := none })
    | _ => s
  else s

def execStallTimerExpiry (s : State) : Host.Outcome State Fault Refusal :=
  actOnBus stallTimerExpiry s

/-- A clash (R51, R52): the verdict becomes MALFORMED, a frame break is begun, CLASH is handed, and the station goes FAULTED at the release of BRK. -/
def clashFound (s : State) : State :=
  let s := handOutcome .clash { s with fe.frame.verdict := some .malformed }
  awaitFault .clash (requestFrameBreak .clash s)

/-- READBACK_COMPARE (R51): in OFFERED the sensed lines are compared with the byte the talker drives. At the sensed assertion of OFFER they are also the observed byte (R2). -/
def readbackCompare (b : BusByte) (s : State) : State :=
  match s.hs.role, s.fe.comparator with
  | .talker .offered, some driven =>
    let s : State :=
      { s with
        line.observed := if s.line.sense.offer then s.line.observed else some b
        line.sense.offer := true
        line.sense.data := b.data
        line.sense.kind := b.kind
        line.sense.last := b.last }
    if b = driven then s else clashFound s
  | _, _ => s

def execReadbackCompare (b : BusByte) (s : State) : Host.Outcome State Fault Refusal :=
  actOnBus (readbackCompare b) s

/-! ### The break edge at the talker (R17, R50, R110, R111) -/

/-- The outcome an attempt ends with at a break edge: the one handed, or BROKEN (R110). -/
def outcomeAtBreak (s : State) : TxOutcome := s.tm.handed.getD .broken

/-- The talker was in OFFERED with the SOURCE byte (R50, R152). -/
def sourceOnOffer (s : State) : Bool := s.hs.role == .talker .offered && s.fe.sentBytes == 1

/-- The byte on offer carries LAST; the comparator holds the byte while OFFER is asserted (R51). -/
def lastOnOffer (s : State) : Bool :=
  match s.hs.role, s.fe.comparator with
  | .talker .offered, some b => b.last
  | _, _ => false

/-- The break edge at a talker (R17): every line of the frame is released, the role is NONE until BRK is released, and unless the frame is already complete the frame is abandoned and the attempt ends. The talker senses the release of OFFER it makes (log 23): after a LAST byte the guard of R16 runs from there. -/
def breakTalker (s : State) : State :=
  let atSource := sourceOnOffer s
  let complete := s.hs.complete
  let s := releaseByte s
  let s : State :=
    { s with
      line.drive.offer := false
      line.drive.own := false
      line.sense.offer := false
      line.guard := if lastOnOffer s then some 0 else s.line.guard
      hs.role := .none
      hs.stall := none
      hs.setUp := none
      hs.window := none
      hs.complete := false
      hs.rejoin := true
      fe.comparator := none }
  let s :=
    if complete then s
    else
      let s := endFrameState (handAbandonment s)
      endAttempt (outcomeAtBreak s) atSource s
  enterOutside s

end Sys2Proof.Machine
end

