-- ==== Sys2Proof/Machine/Station.lean ====
section
/-! DEFINITION. The station controller (chapter 8): station states, joining and leaving, the fault state, configuration, power-on reset, soft reset and loss of power, with the meanings of these events and the host's station commands. -/

namespace Sys2Proof.Machine

open Sys2Proof

/-! ### Leaving the bus (R1, R20, R82, R120, R145, R156) -/

/-- What is left in the slot at an entry into OFFLINE or FAULTED goes (R119): an OPEN gives NOT_OPENED with reason ATTEMPTS (R62), any other frame leaves no record. -/
def emptySlotAtEntry (s : State) : State :=
  match s.tm.slot with
  | some f =>
    match f.kind with
    | .openFrame group tag _ => notOpened group tag .attempts (setSlot none s)
    | .hello | .cancelFrame _ _ => setSlot none s
  | none => s

/-- The entry into OFFLINE or FAULTED, in one action: a SELECTED frame returns (R120), a record under construction is discarded (R145), the view closes (R82), the slot empties (R119), every line is released and sensing stops with the levels it last showed (R1, R2, log 8), and handshake engine, arbiter and frame engine take their values off the bus (R4, R20, R33); STATION is handed (R148). -/
def leaveBus (target : StationState) (reason : StationReason) (s : State) : State :=
  let s := returnSelected s
  let s := if s.rm.state = .idle then s else receptionAbandonment s
  let s := emptySlotAtEntry (viewLeavesBus s)
  handStation reason
    { s with
      line := LineInterface.quiet
      hs := Handshake.idle
      arb := Arbiter.off
      fe := FrameEngine.idle
      tm.handed := none
      pins := PinLevels.ofSense s.line.sense
      ctl.state := target
      ctl.joinPhase := none
      ctl.leaveRequested := false
      ctl.pendingFault := none }

/-- The station is clear of the bus (R154, R155): no frame in progress, not bidding, BRK released. -/
def clearOfBus (s : State) : Bool :=
  !frameInProgress s && !isBidding s && !s.line.sense.brk

/-- A LEAVING station that is clear of the bus enters OFFLINE (R155); not while a soft reset is in progress (R163). -/
def canLeave (s : State) : Bool :=
  s.ctl.state == .leaving && clearOfBus s && !s.ctl.resetInProgress

/-- A join-abandoning station that is clear of the bus with its slot EMPTY enters OFFLINE (R154); not while a soft reset is in progress (R163). -/
def canAbandonJoin (s : State) : Bool :=
  s.ctl.state == .joining && s.ctl.joinPhase == some .participating && s.ctl.leaveRequested &&
    clearOfBus s && s.tm.slot.isNone && !s.ctl.resetInProgress

/-- LEFT (R155). -/
def left (s : State) : State := if canLeave s then leaveBus .offline .left s else s

def execLeft (s : State) : Host.Outcome State Fault Refusal := act left s

/-- JOIN_ABANDONED (R154). -/
def joinAbandoned (s : State) : State :=
  if canAbandonJoin s then leaveBus .offline .joinAbandoned s else s

def execJoinAbandoned (s : State) : Host.Outcome State Fault Refusal := act joinAbandoned s

/-! ### Joining (R149, R150) -/

/-- The arbiter leaves OFF: STANDBY with REQ sensed released, OUTSIDE with it asserted (R20). -/
def arbiterLeavesOff (s : State) : State :=
  if s.line.sense.req then enterOutside s else enterStandby s

/-- A JOINING station in AWAIT_CLEAR that senses OWN and BRK released begins participation (R150); not while a soft reset is in progress (R163). -/
def canParticipate (s : State) : Bool :=
  s.ctl.state == .joining && s.ctl.joinPhase == some .awaitClear && !s.line.sense.own &&
    !s.line.sense.brk && !s.ctl.resetInProgress

/-- The action that begins participation (R150): the station becomes an at-rest participant, its arbiter leaves OFF, the view may enter OBSERVING, and the HELLO is placed. -/
def beginParticipation (s : State) : State :=
  placeSlotFrame .hello
    (observeAtJoin (arbiterLeavesOff (resumeSilence (restAsParticipant
      { s with ctl.joinPhase := some .participating }))))

/-- JOIN at the station controller (R149): the station enters JOINING and senses the lines; with OWN and BRK released it begins participation in this action (R150, log 8, log 13). An assertion of BRK that is already there has no sensed leading edge: that it is not measured is the model's choice (R18, log 39). -/
def cmdJoin (s : State) : State × Reply :=
  if s.ctl.state = .offline then
    let t := handStation .joinStarted
      { s with
        line.sense.own := s.pins.own
        line.sense.req := s.pins.req
        line.sense.brk := s.pins.brk
        line.sense.trg := s.pins.trg
        ctl.state := .joining
        ctl.joinPhase := some .awaitClear
        ctl.leaveRequested := false }
    (if canParticipate t then beginParticipation t else t, statusReply .ok)
  else (s, statusReply .badState)

/-- PARTICIPATION_BEGIN (R150), with the levels of REQ and TRG at that moment. A station that senses nothing notes the two levels and does no more (log 8). -/
def participationBegin (req trg : Bool) (s : State) : State :=
  if canParticipate s then
    beginParticipation { s with line.sense.req := req, line.sense.trg := trg }
  else s

def execParticipationBegin (req trg : Bool) (s : State) : Host.Outcome State Fault Refusal :=
  actOnLine (fun p => { p with req := req, trg := trg }) (participationBegin req trg) s

/-! ### Leaving (R153–R155) -/

/-- The view holds a rendezvous (R153). -/
def viewHoldsRendezvous (v : View) : Bool :=
  match v.state with
  | .provisional | .waiting | .armed | .cancelling => true
  | .none | .observing => false

/-- LEAVE in ONLINE (R153, R155): LEAVING, and OFFLINE in the same action if the station is clear of the bus. -/
def startLeaving (s : State) : State :=
  left (handStation .leaveStarted { s with ctl.state := .leaving })

/-- LEAVE in JOINING (R154): in AWAIT_CLEAR the station enters OFFLINE at once; in PARTICIPATING the HELLO is withdrawn and the station enters OFFLINE as soon as it is clear of the bus. -/
def abandonJoin (s : State) : State :=
  if s.ctl.leaveRequested then s
  else
    let s : State := { s with ctl.leaveRequested := true }
    if s.ctl.joinPhase = some .participating then joinAbandoned (removeSlotFrame s)
    else leaveBus .offline .joinAbandoned s

/-- LEAVE at the station controller (R153, R154). -/
def cmdLeave (s : State) : State × Reply :=
  match s.ctl.state with
  | .online =>
    if viewHoldsRendezvous s.rdv.view || s.tm.slot.isSome then (s, statusReply .rdvBusy)
    else (startLeaving s, statusReply .ok)
  | .joining => (abandonJoin s, statusReply .ok)
  | .offline | .leaving | .faulted => (s, statusReply .badState)

/-! ### Configuration (R157–R159) -/

/-- The configuration record of the eight parameter bytes, if every field is in its range and the silence time exceeds the stall time (R157, R179). -/
def configurationOf (stall silence retry reserve notify age unicast broadcast : Byte) :
    Option Configuration :=
  match policyOfCode unicast, policyOfCode broadcast with
  | some u, some b =>
    if 1 ≤ stall.toNat ∧ 1 ≤ silence.toNat ∧ retry.toNat ≤ 7 ∧ reserve.toNat ≤ 96 ∧
        1 ≤ notify.toNat ∧ notify.toNat ≤ 32 ∧ stall.toNat < silence.toNat * 10 then
      some
        { stallLimit := stall.toNat, silenceLimit := silence.toNat, retryLimit := retry.toNat,
          receiveReserve := reserve.toNat, notifyThreshold := notify.toNat, ageLimit := age.toNat,
          unicast := u, broadcast := b }
    else none
  | _, _ => none

/-- The tests of a new record against what the descriptors hold: the quota (R96) and the attempts (R114). -/
def configurationFits (c : Configuration) (s : State) : Bool :=
  decide (transmitHeld s ≤ Config.blockCount - c.receiveReserve) &&
    entryNumbers.all (fun i =>
      s.tm.table[i].state == .free || decide (s.tm.table[i].attempts ≤ c.retryLimit + 1))

/-- CONFIGURE at the station controller (R157, R158): all eight fields at once, and every aged flag anew (R144). -/
def cmdConfigure (stall silence retry reserve notify age unicast broadcast : Byte) (s : State) :
    State × Reply :=
  if s.ctl.state ≠ .offline then (s, statusReply .badState)
  else
    match configurationOf stall silence retry reserve notify age unicast broadcast with
    | some c =>
      if configurationFits c s then
        (reevaluateAged { s with ctl.configuration := c }, statusReply .ok)
      else (s, statusReply .badParam)
    | none => (s, statusReply .badParam)

/-- SET GROUP at the station controller (R159). -/
def cmdSetGroup (group mode : Byte) (s : State) : State × Reply :=
  if s.ctl.state ≠ .offline then (s, statusReply .badState)
  else
    match modeOfCode mode with
    | some m =>
      if h : group.toNat < 16 then
        ({ s with ctl.subscriptions := s.ctl.subscriptions.set group.toNat m h }, statusReply .ok)
      else (s, statusReply .badParam)
    | none => (s, statusReply .badParam)

/-! ### Soft reset (R163, R164) -/

/-- The clearing of a soft reset, in one action (R164): lines, handshake, arbiter and frame engine off the bus; tables, queues, view and causes cleared; every block in the pool in the order of R97; OFFLINE; STATION handed with RESET unless the station was OFFLINE; the port in COMMAND. Kept: configuration, subscriptions, mask, station number, clock. -/
def softResetClearing (s : State) : State :=
  let wasOffline := s.ctl.state == .offline
  let freed := descriptorBlocks s ++ recordBlocks s ++ constructionBlocks s
  let s : State :=
    { s with
      line := LineInterface.quiet
      hs := Handshake.idle
      arb := Arbiter.off
      fe := FrameEngine.idle
      tm := TransmitManager.cleared
      rm := ReceiveManager.cleared
      mem.pool := s.mem.pool ++ freed
      rdv := RendezvousUnit.cleared
      cause := s.cause.cleared
      port := HostPort.idle
      pins := if senses s then PinLevels.ofSense s.line.sense else s.pins
      ctl.state := .offline
      ctl.joinPhase := none
      ctl.leaveRequested := false
      ctl.resetInProgress := false
      ctl.pendingFault := none }
  if wasOffline then s else handStation .reset s

/-- SOFT RESET at the station controller (R163): on the bus it asks for a clear break and waits; in OFFLINE or FAULTED the clearing follows at once. -/
def cmdSoftReset (s : State) : State × Reply :=
  match s.ctl.state with
  | .joining | .online | .leaving =>
    (requestClearBreak { s with ctl.resetInProgress := true }, .resetBusy)
  | .offline | .faulted => (softResetClearing s, .resetDone)

/-! ### Power (R160–R162, R83) -/

/-- An assertion of RESET# (R162) or a loss of power (R83) ends all activity in the same instant, releases every line and keeps nothing; the station number is sampled anew at the release. -/
def powerDown (p : PowerState) (s : State) : State :=
  State.powerOn s.ctl.number p s.freeIndex s.pending

/-- RESET_ASSERT (R162). Without supply there is nothing to reset. -/
def execResetAssert (s : State) : Host.Outcome State Fault Refusal :=
  if s.power = .off then .next s else .next (powerDown .held s)

/-- RESET_RELEASE (R160–R162): at the release of RESET#, and when power has come back (R83), every block takes its power-on values with the number on the straps. With RESET# already high there is no release. -/
def execResetRelease (straps : StationNumber) (s : State) : Host.Outcome State Fault Refusal :=
  if s.power = .running then .next s
  else .next (State.powerOn straps .running s.freeIndex s.pending)

/-- LOSS_OF_POWER (R83). -/
def execLossOfPower (s : State) : Host.Outcome State Fault Refusal := .next (powerDown .off s)

end Sys2Proof.Machine
end

