-- ==== Sys2Proof/Machine/Breaks.lean ====
section
/-! DEFINITION. Breaks on the lines (R16–R19): the guard, the delay, the pulses, the break edge, the classification and the release, with the meanings of these events. -/

namespace Sys2Proof.Machine

open Sys2Proof

/-- BREAK_GUARD_END (R16, R68): a break held back by the guard is begun if its reason remains; a clear break still waits for the delay after a TRG release sensed meanwhile. -/
def breakGuardEnd (s : State) : State :=
  let reasons := s.line.heldFrame
  let clear := s.line.heldClear
  let s : State := { s with line.guard := none, line.heldFrame := [], line.heldClear := false }
  let s := if clear then requestClearBreak s else s
  match reasons with
  | r :: _ => requestFrameBreak r s
  | [] => s

def execBreakGuardEnd (s : State) : Host.Outcome State Fault Refusal := actOnBus breakGuardEnd s

/-- CLEAR_BREAK_DELAY_END (R68): 300 ns after the sensed TRG release a delayed clear break is begun, as R16 governs it. -/
def clearBreakDelayEnd (s : State) : State :=
  let delayed := s.line.delayedClear
  let s : State := { s with line.trgDelay := none, line.delayedClear := false }
  if delayed then startClearBreak s else s

def execClearBreakDelayEnd (s : State) : Host.Outcome State Fault Refusal :=
  actOnBus clearBreakDelayEnd s

/-- BREAK_PULSE_END (R16): one of the station's own pulses reaches its length; BRK is driven until the later of the two ends. -/
def breakPulseEnd (k : BreakKind) (s : State) : State :=
  let s : State :=
    match k with
    | .frame => { s with line.framePulse := none }
    | .clear => { s with line.clearPulse := none }
  { s with line.drive.brk := s.line.framePulse.isSome || s.line.clearPulse.isSome }

def execBreakPulseEnd (k : BreakKind) (s : State) : Host.Outcome State Fault Refusal :=
  actOnBus (breakPulseEnd k) s

/-- The break edge at a participant or bystander (R17): WAIT and PEND are released, the silence timer stops, the frame is abandoned, the role is NONE until BRK is released. -/
def breakParticipant (s : State) : State :=
  let s := stopSilence (abandonFrame s)
  { s with
    line.drive.wait := false
    line.drive.pend := false
    hs.role := .none
    hs.rejoin := true }

/-- The break edge at the arbiter (R17, R29): a bidder gives up its bid, an arbiter in STANDBY enters OUTSIDE. -/
def breakArbiter (s : State) : State :=
  match s.arb.phase with
  | .bidding | .won => giveUpBid s
  | .standby => enterOutside s
  | .off | .owner | .outside => s

/-- The break edge by role (R17). -/
def breakRole (s : State) : State :=
  match s.hs.role with
  | .talker _ => breakTalker s
  | .participant _ | .bystander => breakParticipant s
  | .none => s

/-- BREAK_EDGE (R17): the measurement begins (R18), held frame breaks lose their reason (R16), a pending fire is held (R66), and every station acts by its role and activity. -/
def breakEdge (s : State) : State :=
  if s.line.sense.brk then s
  else
    let s : State :=
      { s with line.sense.brk := true, line.measure := .timing 0, line.heldFrame := [] }
    breakRole (breakArbiter (holdFire s))

def execBreakEdge (s : State) : Host.Outcome State Fault Refusal :=
  actOnLine (fun p => { p with brk := true }) breakEdge s

/-- CLEAR_BREAK_CLASSIFICATION (R18, R79): BRK has been asserted for 5 µs. One classification for an assertion. -/
def clearBreakClassification (s : State) : State :=
  match s.line.measure with
  | .timing _ => closingSet (handClearBreak { s with line.measure := .clear })
  | .idle | .clear => s

def execClearBreakClassification (s : State) : Host.Outcome State Fault Refusal :=
  actOnBus clearBreakClassification s

/-- An assertion of BRK released before 5 µs is a frame break (R18). -/
def classifyAtRelease (s : State) : State :=
  match s.line.measure with
  | .timing _ => handFrameBreak { s with line.measure := .idle }
  | .idle | .clear => { s with line.measure := .idle }

/-- The return to rest at the release of BRK (R19): stations that were participating at the edge assert PEND and enter READY, and the silence timer runs again if OWN or REQ is sensed asserted. -/
def rejoinAtRelease (s : State) : State :=
  if s.hs.rejoin then
    resumeSilence (restAsParticipant { s with hs.rejoin := false })
  else s

/-- The arbiter at the release of BRK (R29): with OWN and REQ sensed released it enters STANDBY. -/
def arbiterAtRelease (s : State) : State :=
  if s.arb.phase = .outside ∧ s.line.sense.own = false ∧ s.line.sense.req = false then
    enterStandby s
  else s

/-- The release of BRK at a station that goes on: the classification, the view (R66, R80), then the entry into FAULTED where one waits (R52, R152, log 16), else the return to rest (R19). -/
def releaseOrdinary (s : State) : State :=
  let s := breakReleasedAtView s
  match s.ctl.pendingFault, s.ctl.resetInProgress with
  | some reason, false => leaveBus .faulted reason s
  | _, _ => arbiterAtRelease (rejoinAtRelease s)

/-- BRK_RELEASE (R18, R19, R164): a station whose soft reset drove its clear break makes the clearing; any other station goes on. -/
def brkRelease (own req : Bool) (s : State) : State :=
  if s.line.sense.brk then
    let s := classifyAtRelease
      { s with line.sense.brk := false, line.sense.own := own, line.sense.req := req }
    if s.ctl.resetInProgress && !clearBreakHeld s then softResetClearing s else releaseOrdinary s
  else s

def execBrkRelease (own req : Bool) (s : State) : Host.Outcome State Fault Refusal :=
  actOnLine (fun p => { p with brk := false, own := own, req := req }) (brkRelease own req) s

end Sys2Proof.Machine
end

