-- ==== Sys2Proof/Machine/HostPort.lean ====
section
/-! DEFINITION. The host port (chapter 9): the commands on the frame table, the record queue and the cause unit, the hand-over of a command to its owner, the port's phases, ABANDON and protocol errors, with the meanings of the host's accesses and of its commands. -/

namespace Sys2Proof.Machine

open Sys2Proof

/-! ### SEND, WITHDRAW and REAP at the transmit manager (R102, R105, R107) -/

/-- The parameters of SEND are outside their ranges (R102). -/
def sendParamsBad (cls : Byte) (destination : Byte) (length : Nat) (s : State) : Bool :=
  (classOfCode cls).isNone || !isDefinedAddress destination ||
    destination == numberByte s.ctl.number || decide (Config.maxPayload < length)

/-- The packet memory refuses SEND's blocks (R90): the quota or the free blocks do not reach. -/
def blocksRefused (need : Nat) (s : State) : Bool :=
  decide (transmitQuota s < transmitHeld s + need) || decide (freeCount s < need)

/-- The first test of SEND that fails, or the entry the frame takes (R102). -/
def sendTest (tag cls destination : Byte) (length : Nat) (s : State) : Except Status (Fin 16) :=
  if s.ctl.state = .faulted then .error .badState
  else if sendParamsBad cls destination length s then .error .badParam
  else if (findDescriptor s (fun d => d.state != .free && d.tag == tag)).isSome then .error .dupTag
  else
    match findDescriptor s (·.state == .free) with
    | none => .error .tableFull
    | some i => if blocksRefused (blocksNeeded length) s then .error .noSpace else .ok i

/-- The accepting action of SEND (R90, R102): the entry takes the fields and its blocks from the head of the pool, in FILLING. -/
def acceptSend (i : Fin 16) (tag cls destination flags : Byte) (length : Nat) (s : State) : State :=
  let need := blocksNeeded length
  setDescriptor i
    { state := .filling, tag := tag, cls := (classOfCode cls).getD .normal,
      destination := destination, compress := flags.getLsbD 0, length := length,
      blocks := s.mem.pool.take need, attempts := 0, outcome := none, completedAt := none }
    { s with mem.pool := s.mem.pool.drop need }

/-- SEND at the transmit manager (R102, R103): a frame of length 0 is queued in the accepting action. -/
def cmdSend (tag cls destination flags lengthHigh lengthLow : Byte) (s : State) : State × Reply :=
  let length := (word16 lengthHigh lengthLow).toNat
  match sendTest tag cls destination length s with
  | .error st => (s, statusReply st)
  | .ok i =>
    let s := acceptSend i tag cls destination flags length s
    if length = 0 then (askArbiter (queueAtTail i s), statusReply .ok) else (s, .dataIn length)

/-- A descriptor becomes FREE and its blocks return to the pool (R93, R103, R105). -/
def freeDescriptor (i : Fin 16) (s : State) : State :=
  let blocks := s.tm.table[i].blocks
  freeBlocks blocks (setDescriptor i Descriptor.empty s)

/-- WITHDRAW at the transmit manager (R105). -/
def cmdWithdraw (tag : Byte) (s : State) : State × Reply :=
  match findDescriptor s (fun d => d.state != .free && d.tag == tag) with
  | none => (s, statusReply .unknownTag)
  | some i =>
    match s.tm.table[i].state with
    | .queued => (freeDescriptor i (leaveQueue i s), statusReply .ok)
    | .selected | .inFlight => (s, statusReply .inFlight)
    | .free | .filling | .done => (s, statusReply .badState)

/-- The nine bytes of a REAP result (R180). -/
def reapBytes (d : Descriptor) : List Byte :=
  [statusCode .ok, d.tag, classCode d.cls, txOutcomeCode (d.outcome.getD .sent),
    byteOf d.attempts] ++ bytes32 (d.completedAt.getD 0)

/-- REAP at the transmit manager (R107): a copy of the head of the completion list. -/
def cmdReap (s : State) : State × Reply :=
  match s.tm.completion with
  | [] => (s, statusReply .empty)
  | i :: _ => (s, .result (reapBytes s.tm.table[i]))

/-- The last byte of a REAP result is read: the head leaves the completion list and becomes FREE (R107). -/
def reapRead (s : State) : State :=
  match s.tm.completion with
  | [] => s
  | i :: rest => setDescriptor i Descriptor.empty { s with tm.completion := rest }

/-- SEND's data phase is abandoned: the FILLING descriptor becomes FREE (R103, R174). -/
def abandonSend (s : State) : State :=
  match findDescriptor s (·.state == .filling) with
  | some i => freeDescriptor i s
  | none => s

/-- DISCARD at the receive manager (R140). -/
def cmdDiscard (s : State) : State × Reply :=
  match s.rm.records with
  | [] => (s, statusReply .empty)
  | _ :: _ => (removeHeadRecord s, statusReply .ok)

/-! ### Commands of the cause unit (R188, R190, R193) -/

/-- The four bytes of a CAUSES result (R183, R190). -/
def causesBytes (c : CauseUnit) : List Byte :=
  [statusCode .ok, pendingSet c, highestCause c, reasonCode c.reason]

/-- CAUSES (R190). -/
def cmdCauses (s : State) : State × Reply := (s, .result (causesBytes s.cause))

/-- ACKNOWLEDGE (R188). -/
def cmdAcknowledge (b : Byte) (s : State) : State × Reply :=
  ({ s with cause := acknowledgeCauses b s.cause }, statusReply .ok)

/-- SET MASK (R188): the whole mask is replaced. -/
def cmdSetMask (b : Byte) (s : State) : State × Reply :=
  ({ s with cause.mask := causeBits b }, statusReply .ok)

/-- The twenty-seven bytes of a SNAPSHOT result (R183, R193). -/
def snapshotBytes (s : State) : List Byte :=
  [statusCode .ok, stationStateCode s.ctl.state, numberByte s.ctl.number,
    viewStateCode s.rdv.view.state, byteOf (freeCount s), byteOf (transmitHeld s),
    byteOf (receiveHeld s), byteOf (descriptorsInUse s), byteOf s.rm.records.length] ++
  bytes32 s.ctl.clock ++ counterBytes s.cause.counters

/-- SNAPSHOT (R192, R193): the clear flag clears the seven counters after the copy. -/
def cmdSnapshot (flags : Byte) (s : State) : State × Reply :=
  let copy := snapshotBytes s
  (if flags.getLsbD 0 then { s with cause.counters := Counters.zero } else s, .result copy)

/-! ### The hand-over of a command to its owner (R168–R170) -/

/-- The owner's test and effect for a command with its parameter bytes, of which the port has received as many as the command takes (command table of 9.3). -/
def ownerAction (command : HostCommand) (parameters : List Byte) (s : State) : State × Reply :=
  let p := fun i => parameters.getD i 0
  match command with
  | .configure => cmdConfigure (p 0) (p 1) (p 2) (p 3) (p 4) (p 5) (p 6) (p 7) s
  | .setGroup => cmdSetGroup (p 0) (p 1) s
  | .join => cmdJoin s
  | .leave => cmdLeave s
  | .send => cmdSend (p 0) (p 1) (p 2) (p 3) (p 4) (p 5) s
  | .withdraw => cmdWithdraw (p 0) s
  | .reap => cmdReap s
  | .fetch => cmdFetch s
  | .discard => cmdDiscard s
  | .openRdv => cmdOpen (p 0) (p 1) (p 2) (p 3) s
  | .arm => cmdArm s
  | .cancel => cmdCancel s
  | .outcome => cmdOutcome s
  | .causes => cmdCauses s
  | .acknowledge => cmdAcknowledge (p 0) s
  | .setMask => cmdSetMask (p 0) s
  | .snapshot => cmdSnapshot (p 0) s
  | .softReset => cmdSoftReset s

/-- The answer to a command code: an unknown code gives INVALID and tells no block (R168). -/
def answerTo (code : Byte) (parameters : List Byte) (s : State) : State × Reply :=
  match commandOfCode code with
  | some c => ownerAction c parameters s
  | none => (s, statusReply .invalid)

/-- The port in BUSY with what BUSY will enter (R169, R170); abandon-held is clear at the entry (R166). -/
def HostPort.busyWith (command : Option Byte) (r : Reply) : HostPort :=
  { HostPort.idle with
    phase := .busy, command := command, reply := some r,
    busyTime := if r = .resetBusy then none else some 0 }

/-- The port enters BUSY and hands the command to its owner, which acts in this action (R168, R169); the clearing of a soft reset made at once leaves the port in COMMAND (R176). -/
def deliver (code : Byte) (parameters : List Byte) (s : State) : State :=
  let r := answerTo code parameters s
  match r.2 with
  | .resetDone => r.1
  | reply => { r.1 with port := HostPort.busyWith (some code) reply }

/-! ### The phases (R168–R173) -/

/-- A command byte in COMMAND (R168). -/
def commandByte (b : Byte) (s : State) : State :=
  match parameterCount b with
  | some (n + 1) =>
    { s with
      port := { HostPort.idle with phase := .param, command := some b, toCome := n + 1 } }
  | some 0 | none => deliver b [] s

/-- The next parameter byte in PARAM (R169); the last one hands the command over. -/
def parameterByte (b : Byte) (s : State) : State :=
  let parameters := s.port.parameters ++ [b]
  if s.port.toCome ≤ 1 then deliver (s.port.command.getD 0) parameters s
  else
    { s with
      port.parameters := parameters
      port.toCome := s.port.toCome - 1
      port.driven := none }

/-- Place the payload byte of SEND that comes next at its position in the FILLING descriptor (R103). -/
def placePayloadByte (i : Fin 16) (b : Byte) (s : State) : State :=
  let d := s.tm.table[i]
  { s with
    mem.cells := writePayload s.mem.cells d.blocks (d.length - s.port.dataInCount) b }

/-- The next payload byte in DATA_IN (R171); the last one queues the descriptor and enters BUSY. -/
def payloadByte (b : Byte) (s : State) : State :=
  match findDescriptor s (·.state == .filling) with
  | some i =>
    let t := placePayloadByte i b s
    if s.port.dataInCount ≤ 1 then
      { askArbiter (queueAtTail i t) with
        port := HostPort.busyWith s.port.command (statusReply .ok) }
    else
      { t with port.dataInCount := s.port.dataInCount - 1, port.driven := none }
  | none => s

/-- The port returns to COMMAND after a read of this byte. -/
def endByRead (b : Byte) (s : State) : State :=
  { s with port := { HostPort.idle with driven := some b } }

/-- The result is of a command carried out: its status is OK. -/
def resultOk (s : State) : Bool := s.port.result.head? == some (statusCode .ok)

/-- The result of a FETCH is read to its end (R172): DATA_OUT for a kept length of 1 or more, else the head record is removed (R138). -/
def fetchResultRead (b : Byte) (s : State) : State :=
  match s.rm.records with
  | [] => endByRead b s
  | r :: _ =>
    if r.keptLength = 0 then endByRead b (removeHeadRecord s)
    else
      { s with
        port :=
          { HostPort.idle with
            phase := .dataOut, command := s.port.command, dataOutCount := r.keptLength,
            driven := some b } }

/-- The last result byte is read and the owner is told (R172). -/
def resultRead (b : Byte) (s : State) : State :=
  if !resultOk s then endByRead b s
  else
    match s.port.command.bind commandOfCode with
    | some .reap => endByRead b (reapRead s)
    | some .fetch => fetchResultRead b s
    | some .outcome => endByRead b (outcomeRead s)
    | _ => endByRead b s

/-- A DATA read in RESULT (R172). -/
def resultByte (s : State) : State :=
  let b := s.port.result.getD s.port.position 0
  if s.port.result.length ≤ s.port.position + 1 then resultRead b s
  else { s with port.position := s.port.position + 1, port.driven := some b }

/-- The next payload byte of the head record (R173). -/
def nextPayloadByte (s : State) : Byte :=
  match s.rm.records with
  | r :: _ => readPayloadByte s.mem.cells r.blocks (r.keptLength - s.port.dataOutCount)
  | [] => 0

/-- A DATA read in DATA_OUT (R173). -/
def payloadRead (s : State) : State :=
  let b := nextPayloadByte s
  if s.port.dataOutCount ≤ 1 then endByRead b (removeHeadRecord s)
  else { s with port.dataOutCount := s.port.dataOutCount - 1, port.driven := some b }

/-! ### Protocol errors, ABANDON and the end of BUSY (R170, R174–R176) -/

/-- The port is in the BUSY of a soft reset (R176). -/
def resetBusy (s : State) : Bool := s.port.reply == some .resetBusy

/-- A write the port does not take (R175, R176): its byte is ignored, PORT is set unless a soft reset is in progress. -/
def strayWrite (s : State) : State :=
  let s : State := { s with port.driven := none }
  if resetBusy s then s else handPort s

/-- A read the port has no byte for (R175, R176): 00h is returned, PORT is set unless a soft reset is in progress. -/
def strayRead (s : State) : State :=
  let s : State := { s with port.driven := some 0x00 }
  if resetBusy s then s else handPort s

/-- A DATA write, as the port's phase takes it (R168, R169, R171, R175). -/
def dataWrite (b : Byte) (s : State) : State :=
  match s.port.phase with
  | .command => commandByte b s
  | .param => parameterByte b s
  | .dataIn => payloadByte b s
  | .busy | .result | .dataOut => strayWrite s

/-- A DATA read, as the port's phase takes it (R172, R173, R175). -/
def dataRead (s : State) : State :=
  match s.port.phase with
  | .result => resultByte s
  | .dataOut => payloadRead s
  | .command | .param | .dataIn | .busy => strayRead s

/-- A result being read is dropped: an outcome record being read stays in its queue (R86, R174). -/
def dropResult (s : State) : State := { s with rdv.reading := false, port := HostPort.idle }

/-- ABANDON (R174), by the phase it finds. -/
def abandon (s : State) : State :=
  match s.port.phase with
  | .command => { s with port.driven := none }
  | .param => { s with port := HostPort.idle }
  | .dataIn => { abandonSend s with port := HostPort.idle }
  | .busy =>
    if resetBusy s then { s with port.driven := none }
    else { s with port.abandonHeld := true, port.driven := none }
  | .result => dropResult s
  | .dataOut => { s with port := HostPort.idle }

/-- The end of BUSY (R170): DATA_IN or RESULT, or the held ABANDON acts on the phase that would be entered (R174). The BUSY of a soft reset ends by the clearing alone (R176). -/
def busyEnd (s : State) : State :=
  match s.port.phase, s.port.reply with
  | .busy, some (.dataIn n) =>
    if s.port.abandonHeld then { abandonSend s with port := HostPort.idle }
    else
      { s with
        port :=
          { HostPort.idle with
            phase := .dataIn, command := s.port.command, dataInCount := n,
            driven := s.port.driven } }
  | .busy, some (.result bytes) =>
    if s.port.abandonHeld then dropResult s
    else
      { s with
        port :=
          { HostPort.idle with
            phase := .result, command := s.port.command, result := bytes,
            driven := s.port.driven } }
  | _, _ => s

/-- The host gives a whole command: it writes the command byte and the parameter bytes one after another (log 9). A port in COMMAND takes them and hands the command over at the last; in any other phase each byte is what the phase makes it. -/
def giveCommand (code : Byte) (parameters : List Byte) (s : State) : State :=
  if s.port.phase = .command then deliver code parameters s
  else (code :: parameters).foldl (fun t b => dataWrite b t) s

/-! ### Pins and the location PHASE (R165, R167) -/

/-- The byte a read of PHASE returns (R167). -/
def phaseByte (s : State) : Byte :=
  (if s.cause.int then 0x80 else 0x00) ||| portPhaseCode s.port.phase

/-- The row of the command table that a DATA write is in a phase. -/
def dataWriteRow (b : Byte) : PortPhase → Instr
  | .command => .commandByteWrite b
  | .param => .parameterByteWrite b
  | .dataIn => .payloadByteWrite b
  | .busy | .result | .dataOut => .protocolError (.write b)

/-- The row of the command table that a DATA read is in a phase. -/
def dataReadRow : PortPhase → Instr
  | .result => .resultByteRead
  | .dataOut => .payloadByteRead
  | .command | .param | .dataIn | .busy => .protocolError .read

/-- The command an access makes (R165), by the levels of CS#, RD#, WR# and A0 (true is high), the byte on D0–D7 and the port's phase. No command: an access made with CS# high or with RD# and WR# both low is ignored, and a read of PHASE changes nothing. -/
def accessCommand (cs rd wr a0 : Bool) (b : Byte) (phase : PortPhase) : Option Instr :=
  if cs then none
  else
    match rd, wr, a0 with
    | true, false, true => some (.abandon b)
    | true, false, false => some (dataWriteRow b phase)
    | false, true, false => some (dataReadRow phase)
    | _, _, _ => none

/-! ### Meanings: accesses. An access is what the port's phase makes it (log 3). -/

/-- COMMAND_BYTE_WRITE (R168). -/
def execCommandByteWrite (b : Byte) (s : State) : Host.Outcome State Fault Refusal :=
  act (dataWrite b) s

/-- PARAMETER_BYTE_WRITE (R169). -/
def execParameterByteWrite (b : Byte) (s : State) : Host.Outcome State Fault Refusal :=
  act (dataWrite b) s

/-- PAYLOAD_BYTE_WRITE (R171). -/
def execPayloadByteWrite (b : Byte) (s : State) : Host.Outcome State Fault Refusal :=
  act (dataWrite b) s

/-- BUSY_END (R170). -/
def execBusyEnd (s : State) : Host.Outcome State Fault Refusal := act busyEnd s

/-- RESULT_BYTE_READ (R172). -/
def execResultByteRead (s : State) : Host.Outcome State Fault Refusal := act dataRead s

/-- PAYLOAD_BYTE_READ (R173). -/
def execPayloadByteRead (s : State) : Host.Outcome State Fault Refusal := act dataRead s

/-- ABANDON (R174), whatever byte the write carries. -/
def execAbandon (_b : Byte) (s : State) : Host.Outcome State Fault Refusal := act abandon s

/-- PROTOCOL_ERROR (R175). -/
def execProtocolError (a : DataAccess) (s : State) : Host.Outcome State Fault Refusal :=
  act (fun t =>
    match a with
    | .write b => dataWrite b t
    | .read => dataRead t) s

/-! ### Meanings: commands of the host, with their codes (command table of 9.3) -/

/-- CONFIGURE, 01h (R157). -/
def execConfigure (stall silence retry reserve notify age unicast broadcast : Byte) (s : State) :
    Host.Outcome State Fault Refusal :=
  act (giveCommand 0x01 [stall, silence, retry, reserve, notify, age, unicast, broadcast]) s

/-- SET GROUP, 02h (R159). -/
def execSetGroup (group mode : Byte) (s : State) : Host.Outcome State Fault Refusal :=
  act (giveCommand 0x02 [group, mode]) s

/-- JOIN, 03h (R149). -/
def execJoin (s : State) : Host.Outcome State Fault Refusal := act (giveCommand 0x03 []) s

/-- LEAVE, 04h (R153). -/
def execLeave (s : State) : Host.Outcome State Fault Refusal := act (giveCommand 0x04 []) s

/-- SEND, 10h (R102). -/
def execSend (tag cls destination flags lengthHigh lengthLow : Byte) (s : State) :
    Host.Outcome State Fault Refusal :=
  act (giveCommand 0x10 [tag, cls, destination, flags, lengthHigh, lengthLow]) s

/-- WITHDRAW, 11h (R105). -/
def execWithdraw (tag : Byte) (s : State) : Host.Outcome State Fault Refusal :=
  act (giveCommand 0x11 [tag]) s

/-- REAP, 12h (R107). -/
def execReap (s : State) : Host.Outcome State Fault Refusal := act (giveCommand 0x12 []) s

/-- FETCH, 20h (R138). -/
def execFetch (s : State) : Host.Outcome State Fault Refusal := act (giveCommand 0x20 []) s

/-- DISCARD, 21h (R140). -/
def execDiscard (s : State) : Host.Outcome State Fault Refusal := act (giveCommand 0x21 []) s

/-- OPEN, 30h (R57). -/
def execOpen (group tag deadlineHigh deadlineLow : Byte) (s : State) :
    Host.Outcome State Fault Refusal :=
  act (giveCommand 0x30 [group, tag, deadlineHigh, deadlineLow]) s

/-- ARM, 31h (R63). -/
def execArm (s : State) : Host.Outcome State Fault Refusal := act (giveCommand 0x31 []) s

/-- CANCEL, 32h (R69). -/
def execCancel (s : State) : Host.Outcome State Fault Refusal := act (giveCommand 0x32 []) s

/-- OUTCOME, 33h (R86). -/
def execOutcome (s : State) : Host.Outcome State Fault Refusal := act (giveCommand 0x33 []) s

/-- CAUSES, 40h (R190). -/
def execCauses (s : State) : Host.Outcome State Fault Refusal := act (giveCommand 0x40 []) s

/-- ACKNOWLEDGE, 41h (R188). -/
def execAcknowledge (causeByte : Byte) (s : State) : Host.Outcome State Fault Refusal :=
  act (giveCommand 0x41 [causeByte]) s

/-- SET MASK, 42h (R188). -/
def execSetMask (causeByte : Byte) (s : State) : Host.Outcome State Fault Refusal :=
  act (giveCommand 0x42 [causeByte]) s

/-- SNAPSHOT, 43h (R193). -/
def execSnapshot (flags : Byte) (s : State) : Host.Outcome State Fault Refusal :=
  act (giveCommand 0x43 [flags]) s

/-- SOFT RESET, 7Fh (R163). -/
def execSoftReset (s : State) : Host.Outcome State Fault Refusal := act (giveCommand 0x7F []) s

end Sys2Proof.Machine
end

