-- ==== Sys2Proof/Machine/Clock.lean ====
section
/-! DEFINITION. One period of the reference clock: the running timers advance, and the events whose time has come join the queue of commands (log 1). -/

namespace Sys2Proof.Machine

open Sys2Proof

/-! ### The timers -/

/-- A running timer gains one period; a stopped one stays stopped. -/
def tickTimer (t : Option Nat) : Option Nat := t.map (· + 1)

/-- The timers of the line interface (R16, R18, R68). -/
def LineInterface.tick (l : LineInterface) : LineInterface :=
  { l with
    framePulse := tickTimer l.framePulse
    clearPulse := tickTimer l.clearPulse
    guard := tickTimer l.guard
    trgDelay := tickTimer l.trgDelay
    measure :=
      match l.measure with
      | .timing n => .timing (n + 1)
      | m => m }

/-- The timers of the handshake engine (R3, R11, R14, R15). -/
def Handshake.tick (h : Handshake) : Handshake :=
  { h with
    stall := tickTimer h.stall
    silence := tickTimer h.silence
    setUp := tickTimer h.setUp
    window := tickTimer h.window }

/-- The timers of the arbiter (R26, R30). -/
def Arbiter.tick (a : Arbiter) : Arbiter :=
  { a with settle := tickTimer a.settle, roundGap := tickTimer a.roundGap }

/-- The timers of the view (R65, R75). -/
def View.tick (v : View) : View :=
  { v with
    timer := tickTimer v.timer
    fire :=
      match v.fire with
      | .pending sensedAt n => .pending sensedAt (n + 1)
      | f => f }

/-- One period passes in every block: the timers, the bound of BUSY (R170), the FIRE pulse (R65), and every twentieth period a microsecond of the station clock (R161). -/
def passTime (s : State) : State :=
  let wraps := decide (Config.periodsPerMicrosecond ≤ s.refPhase + 1)
  { s with
    line := s.line.tick
    hs := s.hs.tick
    arb := s.arb.tick
    rdv.view := s.rdv.view.tick
    rdv.firePulse := tickTimer s.rdv.firePulse
    port.busyTime := tickTimer s.port.busyTime
    refPhase := if wraps then 0 else s.refPhase + 1
    ctl.clock := if wraps then s.ctl.clock + 1 else s.ctl.clock }

/-! ### The events whose time has come -/

/-- An event, if its condition holds. -/
def dueIf (condition : Bool) (event : Instr) : List Instr := if condition then [event] else []

/-- A fire waits for its delay (R65). -/
def fireDue (f : FirePending) : Bool :=
  match f with
  | .pending _ n => decide (Config.fireDelay ≤ n)
  | .held _ | .clear => false

/-- The assertion of BRK has lasted the classification time (R18). -/
def classificationDue (m : BreakMeasure) : Bool :=
  match m with
  | .timing n => decide (Config.classification ≤ n)
  | .idle | .clear => false

/-- Events of the line interface (R16, R18, R68). -/
def lineDue (s : State) : List Instr :=
  dueIf (reached s.line.guard Config.breakGuard) .breakGuardEnd ++
  dueIf (reached s.line.trgDelay Config.clearBreakDelay) .clearBreakDelayEnd ++
  dueIf (reached s.line.framePulse Config.framePulse) (.breakPulseEnd .frame) ++
  dueIf (reached s.line.clearPulse Config.clearPulse) (.breakPulseEnd .clear) ++
  dueIf (classificationDue s.line.measure) .clearBreakClassification

/-- Events of the handshake engine (R3, R11, R14, R15). In the set-up of a byte the talker's wait has ended, and no expiry of it comes (log 19). -/
def handshakeDue (s : State) : List Instr :=
  dueIf (s.hs.setUp == some Config.offerSetUp) .offerAssert ++
  dueIf (reached s.hs.window Config.completionWindow && !s.hs.complete) .completionWindowEnd ++
  dueIf (reached s.hs.window Config.ownHold && s.hs.complete) .ownHoldEnd ++
  dueIf (stallExpires s) .stallTimerExpiry ++
  dueIf (s.hs.silence == some (silenceBound s)) .silenceTimerExpiry

/-- Events of the arbiter (R26, R30). The decision needs the sample of D0–D7 and comes with it from outside (log 8). -/
def arbiterDue (s : State) : List Instr :=
  dueIf (s.arb.phase == .won && reached s.arb.settle Config.wonHold) .wonHoldEnd ++
  dueIf (reached s.arb.roundGap Config.roundGap) .roundGapExpiry

/-- Events of the rendezvous unit (R65, R76). -/
def rendezvousDue (s : State) : List Instr :=
  dueIf (fireDue s.rdv.view.fire) .fireDelayEnd ++
  dueIf (reached s.rdv.firePulse Config.firePulse) .firePulseEnd ++
  dueIf (reached s.rdv.view.timer ((s.rdv.view.deadline.getD 0).toNat * Config.deadlineUnit))
    .deadlineExpiry

/-- The places of the records whose age equals the age limit, at the first period of a microsecond (R143). -/
def agedDue (s : State) : List Instr :=
  if s.ctl.configuration.ageLimit = 0 ∨ s.refPhase ≠ 0 then []
  else
    (List.range s.rm.records.length).filterMap (fun place =>
      match s.rm.records[place]? with
      | some r => if !r.aged && recordAge s r == ageBound s then some (.agedFlagSet place) else none
      | none => none)

/-- Events of the station controller (R150, R154, R155) and the longest BUSY (R170). -/
def stationDue (s : State) : List Instr :=
  dueIf (reached s.port.busyTime Config.busyBound) .busyEnd ++
  dueIf (canParticipate s) (.participationBegin s.line.sense.req s.line.sense.trg) ++
  dueIf (canLeave s) .left ++
  dueIf (canAbandonJoin s) .joinAbandoned

/-- Every event whose time has come. -/
def dueEvents (s : State) : List Instr :=
  lineDue s ++ handshakeDue s ++ arbiterDue s ++ rendezvousDue s ++ agedDue s ++ stationDue s

/-- Events of one period in a free order (log 4): each place is filled by a free choice among those left. -/
def freeOrder : Nat → Nat → List Instr → List Instr
  | _, _, [] => []
  | _, _, [e] => [e]
  | 0, _, events => events
  | n + 1, index, events =>
    let k := Config.tieOrder index % events.length
    events[k]?.toList ++ freeOrder n (index + 1) (events.eraseIdx k)

/-- One period of the reference clock, taken on an empty queue (log 1). A part that is held in reset or without supply keeps no time (R162, R83). -/
def tick (s : State) : State :=
  if s.power = .running then
    let t := passTime s
    let due := dueEvents t
    { t with
      pending := freeOrder due.length t.freeIndex due
      freeIndex := t.freeIndex + (due.length - 1) }
  else s

end Sys2Proof.Machine
end

