-- ==== Sys2Proof/Machine/Dispatch.lean ====
section
/-! DEFINITION. The dispatch: one arm for each row of the command table, each one direct call of the row's meaning. -/

namespace Sys2Proof.Machine

open Sys2Proof

def exec (i : Instr) (s : State) : Host.Outcome State Fault Refusal :=
  match i with
  | .commandByteWrite b => Sys2Proof.Machine.execCommandByteWrite b s
  | .parameterByteWrite b => Sys2Proof.Machine.execParameterByteWrite b s
  | .payloadByteWrite b => Sys2Proof.Machine.execPayloadByteWrite b s
  | .busyEnd => Sys2Proof.Machine.execBusyEnd s
  | .resultByteRead => Sys2Proof.Machine.execResultByteRead s
  | .payloadByteRead => Sys2Proof.Machine.execPayloadByteRead s
  | .abandon b => Sys2Proof.Machine.execAbandon b s
  | .protocolError a => Sys2Proof.Machine.execProtocolError a s
  | .configure stall silence retry reserve notify age unicast broadcast => Sys2Proof.Machine.execConfigure stall silence retry reserve notify age unicast broadcast s
  | .setGroup group mode => Sys2Proof.Machine.execSetGroup group mode s
  | .join => Sys2Proof.Machine.execJoin s
  | .leave => Sys2Proof.Machine.execLeave s
  | .send tag cls destination flags lengthHigh lengthLow => Sys2Proof.Machine.execSend tag cls destination flags lengthHigh lengthLow s
  | .withdraw tag => Sys2Proof.Machine.execWithdraw tag s
  | .reap => Sys2Proof.Machine.execReap s
  | .fetch => Sys2Proof.Machine.execFetch s
  | .discard => Sys2Proof.Machine.execDiscard s
  | .openRendezvous group tag deadlineHigh deadlineLow => Sys2Proof.Machine.execOpen group tag deadlineHigh deadlineLow s
  | .arm => Sys2Proof.Machine.execArm s
  | .cancel => Sys2Proof.Machine.execCancel s
  | .outcome => Sys2Proof.Machine.execOutcome s
  | .causes => Sys2Proof.Machine.execCauses s
  | .acknowledge causeByte => Sys2Proof.Machine.execAcknowledge causeByte s
  | .setMask causeByte => Sys2Proof.Machine.execSetMask causeByte s
  | .snapshot flags => Sys2Proof.Machine.execSnapshot flags s
  | .softReset => Sys2Proof.Machine.execSoftReset s
  | .armPinEdge => Sys2Proof.Machine.execArmPinEdge s
  | .resetAssert => Sys2Proof.Machine.execResetAssert s
  | .resetRelease straps => Sys2Proof.Machine.execResetRelease straps s
  | .ownAssertionSensed => Sys2Proof.Machine.execOwnAssertionSensed s
  | .take b => Sys2Proof.Machine.execTake b s
  | .observe b => Sys2Proof.Machine.execObserve b s
  | .offerReleaseSensed => Sys2Proof.Machine.execOfferReleaseSensed s
  | .talkerReadySensed => Sys2Proof.Machine.execTalkerReadySensed s
  | .offerAssert => Sys2Proof.Machine.execOfferAssert s
  | .pendReleaseSensed => Sys2Proof.Machine.execPendReleaseSensed s
  | .noListener => Sys2Proof.Machine.execNoListener s
  | .completionWindowEnd => Sys2Proof.Machine.execCompletionWindowEnd s
  | .ownHoldEnd => Sys2Proof.Machine.execOwnHoldEnd s
  | .ownReleaseSensed req => Sys2Proof.Machine.execOwnReleaseSensed req s
  | .stallTimerExpiry => Sys2Proof.Machine.execStallTimerExpiry s
  | .silenceTimerExpiry => Sys2Proof.Machine.execSilenceTimerExpiry s
  | .breakGuardEnd => Sys2Proof.Machine.execBreakGuardEnd s
  | .breakPulseEnd k => Sys2Proof.Machine.execBreakPulseEnd k s
  | .breakEdge => Sys2Proof.Machine.execBreakEdge s
  | .clearBreakClassification => Sys2Proof.Machine.execClearBreakClassification s
  | .brkRelease own req => Sys2Proof.Machine.execBrkRelease own req s
  | .readbackCompare b => Sys2Proof.Machine.execReadbackCompare b s
  | .busIdleSensed => Sys2Proof.Machine.execBusIdleSensed s
  | .reqSensed => Sys2Proof.Machine.execReqSensed s
  | .bidLineChange d => Sys2Proof.Machine.execBidLineChange d s
  | .arbitrationDecision d => Sys2Proof.Machine.execArbitrationDecision d s
  | .wonHoldEnd => Sys2Proof.Machine.execWonHoldEnd s
  | .roundGapExpiry => Sys2Proof.Machine.execRoundGapExpiry s
  | .trgReleaseSensed => Sys2Proof.Machine.execTrgReleaseSensed s
  | .fireDelayEnd => Sys2Proof.Machine.execFireDelayEnd s
  | .firePulseEnd => Sys2Proof.Machine.execFirePulseEnd s
  | .clearBreakDelayEnd => Sys2Proof.Machine.execClearBreakDelayEnd s
  | .deadlineExpiry => Sys2Proof.Machine.execDeadlineExpiry s
  | .agedFlagSet place => Sys2Proof.Machine.execAgedFlagSet place s
  | .participationBegin req trg => Sys2Proof.Machine.execParticipationBegin req trg s
  | .left => Sys2Proof.Machine.execLeft s
  | .joinAbandoned => Sys2Proof.Machine.execJoinAbandoned s
  | .lossOfPower => Sys2Proof.Machine.execLossOfPower s

end Sys2Proof.Machine
end

