-- ==== Sys2Proof/Machine/Step.lean ====
section
/-! DEFINITION. One step: the command at the front of the queue, or one period of the reference clock on an empty queue. -/

namespace Sys2Proof.Machine

open Sys2Proof

/-- The command at the front of the queue is taken, with the queue's rest; on an empty queue one period of the reference clock passes (log 1). -/
def step (s : State) : Host.Outcome State Fault Refusal :=
  match s.pending with
  | c :: rest => exec c { s with pending := rest }
  | [] => .next (tick s)

/-- The state with the command a word spells at the front of its queue; unchanged where the word spells none (log 33). -/
def State.withFetchWord (s : State) (nbits w : Nat) : State :=
  match decodeTableWord nbits w with
  | some c => { s with pending := c :: s.pending }
  | none => s

end Sys2Proof.Machine
end

