-- ==== Sys2Proof/Safety.lean ====
section
/-! DEFINITION. What the statements about this machine speak of: the situations a command needs, what a command leaves as it was, and the invariants that every step keeps. -/

namespace Sys2Proof.Machine

open Sys2Proof

/-! ### Situations -/

/-- The part is supplied and RESET# is high. -/
abbrev Running (s : State) : Prop := s.power = .running

/-- The part runs and senses the lines of the rack bus (R2). -/
abbrev OnBus (s : State) : Prop := s.power = .running ∧ senses s = true

/-- The part runs and its host port is in COMMAND, ready for a command byte (R168). -/
abbrev PortFree (s : State) : Prop := s.power = .running ∧ s.port.phase = .command

/-- No participant waits for a record slot or for a block (R126, R129), so a freeing moves blocks and nothing else. -/
abbrev NoRoomAwaited (s : State) : Prop :=
  receptionWaits s = false ∧ (s.hs.role = .participant .preparing → isReady s = false)

/-! ### What a command leaves as it was -/

/-- The cause unit is unchanged but for its level conditions and INT, which follow the other blocks (R187, R189). -/
def KeepsCauses (s t : State) : Prop :=
  t.cause =
    { s.cause with
      rendezvous := t.cause.rendezvous, receive := t.cause.receive,
      complete := t.cause.complete, int := t.cause.int }

/-- The slot after the purge of a CANCEL for the tag of a view that closes (R77): a QUEUED one is gone, a SELECTED or IN_FLIGHT one has its removal requested, and any other content stays. -/
def purgedSlot (tag : Byte) : Option SlotFrame → Option SlotFrame
  | none => none
  | some f =>
    match f.kind with
    | .cancelFrame _ t =>
      if t ≠ tag then some f
      else if f.state = .queued then none
      else some { f with removal := true }
    | .hello | .openFrame _ _ _ => some f

/-- The state after the frame in progress is abandoned, but for the frame state itself (R54). A record under construction is discarded and its blocks join the pool (R136). Of an OPEN a noted open is dropped, and a PROVISIONAL view releases TRG and is NONE (R61). At a CANCEL a CANCELLING view returns to WAITING or ARMED by its TRG drive, the freeze is lifted, a pending-arm is applied, and the automatic CANCEL of an expiry that came in CANCELLING is in the slot (R73, R76). A soft reset in progress keeps TRG driven (R81). -/
def frameAbandoned (s : State) : State :=
  let v := s.rdv.view
  let r : State :=
    if s.rm.state = .idle then s
    else
      { s with
        rm.state := .idle
        rm.policy := none
        rm.construction := none
        rm.held := none
        mem.pool := s.mem.pool ++ constructionBlocks s }
  if s.fe.frame.type = some typeOpen then
    if v.state = .provisional then
      { r with
        line.drive.trg := s.line.drive.trg && s.ctl.resetInProgress
        rdv.noted := none
        rdv.view := View.absent }
    else { r with rdv.noted := none }
  else if s.fe.frame.type = some typeCancel ∧
      (v.state = .waiting ∨ v.state = .armed ∨ v.state = .cancelling) then
    let back : ViewState :=
      if v.state = .cancelling then (if s.line.drive.trg then .waiting else .armed) else v.state
    let arms : Bool := back == .waiting && v.pendingArm
    { r with
      line.drive.trg := s.line.drive.trg && (!arms || s.ctl.resetInProgress)
      rdv.view.state := if arms then .armed else back
      rdv.view.freeze := false
      rdv.view.pendingArm := v.pendingArm && !arms
      rdv.view.cancelSentHere := v.cancelSentHere && v.state != .cancelling
      rdv.view.expiredCancelling := false
      tm.slot :=
        if v.expiredCancelling && s.tm.slot.isNone then
          some
            { state := .queued, kind := .cancelFrame (v.group.getD 0) (v.tag.getD 0),
              attempts := 0, removal := false }
        else s.tm.slot }
  else r

/-! ### Invariants -/

/-- The packet memory's contents are in canonical form. -/
abbrev MemoryCanonical (s : State) : Prop := Memory.wf s.mem.cells = true

/-- The configuration record is in the ranges of R157, and the configured silence time is greater than the configured stall time. -/
abbrev ConfigurationLegal (s : State) : Prop :=
  let c := s.ctl.configuration
  1 ≤ c.stallLimit ∧ c.stallLimit ≤ 255 ∧ 1 ≤ c.silenceLimit ∧ c.silenceLimit ≤ 255 ∧
    c.retryLimit ≤ 7 ∧ c.receiveReserve ≤ 96 ∧ 1 ≤ c.notifyThreshold ∧ c.notifyThreshold ≤ 32 ∧
    c.ageLimit ≤ 255 ∧ c.stallLimit * Config.stallUnit < c.silenceLimit * Config.silenceUnit

/-- Each level cause is what its owner's condition is, and INT is asserted exactly while a cause is pending and enabled (R187, R189). -/
abbrev LevelsSettled (s : State) : Prop :=
  s.cause.rendezvous = !s.rdv.outcomes.isEmpty ∧ s.cause.receive = receiveCondition s ∧
    s.cause.complete = !s.tm.completion.isEmpty ∧ s.cause.int = intAsserted s.cause

/-- The outcome queue holds at most 4 records (R85); the record queue with a reserved slot at most 32 (R124). -/
abbrev QueuesBounded (s : State) : Prop :=
  s.rdv.outcomes.length ≤ 4 ∧
    s.rm.records.length + (if s.rm.construction.isSome then 1 else 0) ≤ 32

/-- The blocks held by descriptors never exceed the transmit quota (R89). -/
abbrev QuotaKept (s : State) : Prop := transmitHeld s ≤ transmitQuota s

/-- Each order of the transmit manager holds a descriptor at most once, and exactly while the descriptor is in the state that order holds (R100). -/
abbrev OrdersAgree (s : State) : Prop :=
  s.tm.urgent.Nodup ∧ s.tm.normal.Nodup ∧ s.tm.completion.Nodup ∧
    ∀ i : Fin 16,
      (i ∈ s.tm.urgent ↔ s.tm.table[i].state = .queued ∧ s.tm.table[i].cls = .urgent) ∧
      (i ∈ s.tm.normal ↔ s.tm.table[i].state = .queued ∧ s.tm.table[i].cls = .normal) ∧
      (i ∈ s.tm.completion ↔ s.tm.table[i].state = .done)

/-- Every block of the packet memory, each listed once under the owner that holds it (R87). -/
def ownedBlocks (s : State) : List Nat :=
  s.mem.pool ++ descriptorBlocks s ++ recordBlocks s ++ constructionBlocks s

/-- Each of the 128 blocks has exactly one owner (R87); FREE and DONE descriptors hold none (R93), and no record is under construction in IDLE, SLOT_WAIT and DROPPING (R122). -/
abbrev BlocksOwned (s : State) : Prop :=
  (ownedBlocks s).Perm (List.range Config.blockCount) ∧
    (∀ i : Fin 16, s.tm.table[i].state = .free ∨ s.tm.table[i].state = .done →
      s.tm.table[i].blocks = []) ∧
    (s.rm.state = .idle ∨ s.rm.state = .slotWait ∨ s.rm.state = .dropping →
      s.rm.construction = none)

/-- In OFFLINE and FAULTED no line is driven or sensed, and the handshake engine, the arbiter, the frame engine and the view have their values off the bus (R1, R2, R4, R20, R33, R82). -/
abbrev OffBusQuiet (s : State) : Prop :=
  senses s = false →
    s.line = LineInterface.quiet ∧ s.hs = Handshake.idle ∧ s.arb = Arbiter.off ∧
      s.fe = FrameEngine.idle ∧ s.rdv.view = View.absent

/-- The attempts of every descriptor and of the slot frame are 0–8 (R99, R101), and at most 7 where another attempt can still come. -/
def AttemptsInRange (s : State) : Prop :=
  (∀ i : Fin 16, s.tm.table[i].attempts ≤ 8 ∧
    (s.tm.table[i].state ≠ .inFlight → s.tm.table[i].state ≠ .done →
      s.tm.table[i].attempts ≤ 7)) ∧
  ∀ f, s.tm.slot = some f → f.attempts ≤ 8 ∧ (f.state ≠ .inFlight → f.attempts ≤ 7)

/-! ### The answer of a command -/

/-- The command answers the next state u, with the level conditions and INT of the cause unit as that state gives them, and nothing else of u changed. -/
def NextIs (c : Instr) (s u : State) : Prop :=
  ∃ t, exec c s = .next t ∧ t = { u with cause := t.cause } ∧ KeepsCauses u t ∧ LevelsSettled t

/-- The station entered OFFLINE or FAULTED with this reason: every line is released, the blocks of the bus side have their values off the bus, the view is NONE, and the frame table with its orders, the records, the packet memory, the configuration, the subscriptions, the mask and the counters are kept (R1, R4, R20, R33, R82, R120, R145, R148). -/
def LeftTheBus (s t : State) (state : StationState) (reason : StationReason) : Prop :=
  t.ctl.state = state ∧ t.cause.station = true ∧ t.cause.reason = some reason ∧
    t.line = LineInterface.quiet ∧ t.hs = Handshake.idle ∧ t.arb = Arbiter.off ∧
    t.fe = FrameEngine.idle ∧ t.rdv.view = View.absent ∧ t.tm.slot = none ∧
    t.tm.table = s.tm.table ∧ t.tm.urgent = s.tm.urgent ∧ t.tm.normal = s.tm.normal ∧
    t.tm.completion = s.tm.completion ∧ t.rm = s.rm ∧ t.mem = s.mem ∧
    t.ctl.configuration = s.ctl.configuration ∧ t.ctl.subscriptions = s.ctl.subscriptions ∧
    t.ctl.number = s.ctl.number ∧ t.cause.mask = s.cause.mask

/-! ### A frame heard from its first byte to its last -/

/-- The frame state after a sequence of bytes, and the event at each byte (R33–R47). -/
def hear (number : StationNumber) (subscriptions : Vector (Option Policy) 16) :
    List BusByte → FrameState → FrameState × List FrameEvent
  | [], f => (f, [])
  | b :: rest, f =>
    let r := parseByte number subscriptions b f
    let q := hear number subscriptions rest r.1
    (q.1, r.2 :: q.2)

/-- The payload bytes that a sequence of events hands on, with every run expanded (R42, R43). -/
def expandedPayload : List FrameEvent → List Byte
  | [] => []
  | .copies value count _ :: rest => List.replicate count value ++ expandedPayload rest
  | _ :: rest => expandedPayload rest

end Sys2Proof.Machine
end

