-- ==== Sys2Proof/Certificates/Slice0/Obligations.lean ====
section
/-! DEFINITION. The statements for the provers. -/

open Sys2Proof Sys2Proof.Machine

/-! ### The step, the queue, power -/

/-- One step takes the command at the front of the queue, with the queue's rest. -/
def Obligations.StepRunsTheFrontCommand : Prop :=
  ∀ (c : Instr) (rest : List Instr) (s : State),
    step { s with pending := c :: rest } = exec c { s with pending := rest }

/-- On an empty queue the step is one period of the reference clock (the model's choice, log 1): twenty of them raise the station clock by one. Every running timer gains one period, a stopped one stays stopped, and nothing else changes but the queue and the index of the free choices made for its order. The events whose time has come in the state reached are queued, each once, in a free order (log 4): an event is queued exactly when its timer has come to its limit, or, for the beginning of participation, LEFT and JOIN_ABANDONED, when its condition holds (log 13). In the set-up of a byte, which the change of WAIT and PEND that ends the wait has begun, no expiry of the stall timer comes (log 19). While RESET# is low or the supply is missing no time passes. -/
def Obligations.EmptyQueuePassesOnePeriod : Prop :=
  ∀ s : State, s.pending = [] → (¬ Running s → step s = .next s) ∧ (Running s →
    ∃ t, step s = .next t ∧ t.pending.Perm (dueEvents t) ∧
      (s.refPhase + 1 < 20 → t.refPhase = s.refPhase + 1 ∧ t.ctl.clock = s.ctl.clock) ∧
      (20 ≤ s.refPhase + 1 → t.refPhase = 0 ∧ t.ctl.clock = s.ctl.clock + 1) ∧
      t.line = { s.line with
        framePulse := s.line.framePulse.map (· + 1)
        clearPulse := s.line.clearPulse.map (· + 1)
        guard := s.line.guard.map (· + 1)
        trgDelay := s.line.trgDelay.map (· + 1)
        measure := (match s.line.measure with
          | .timing n => .timing (n + 1) | .idle => .idle | .clear => .clear) } ∧
      t.hs = { s.hs with
        stall := s.hs.stall.map (· + 1)
        silence := s.hs.silence.map (· + 1)
        setUp := s.hs.setUp.map (· + 1)
        window := s.hs.window.map (· + 1) } ∧
      t.arb = { s.arb with
        settle := s.arb.settle.map (· + 1), roundGap := s.arb.roundGap.map (· + 1) } ∧
      t.rdv = { s.rdv with
        firePulse := s.rdv.firePulse.map (· + 1)
        view.timer := s.rdv.view.timer.map (· + 1)
        view.fire := (match s.rdv.view.fire with
          | .pending at' n => .pending at' (n + 1) | .held at' => .held at' | .clear => .clear) } ∧
      t.port = { s.port with busyTime := s.port.busyTime.map (· + 1) } ∧
      t.ctl = { s.ctl with clock := t.ctl.clock } ∧
      t.fe = s.fe ∧ t.mem = s.mem ∧ t.tm = s.tm ∧ t.rm = s.rm ∧ t.cause = s.cause ∧
      t.pins = s.pins ∧ t.power = s.power ∧
      t.freeIndex = s.freeIndex + ((dueEvents t).length - 1) ∧
      (.breakGuardEnd ∈ t.pending ↔ ∃ n, t.line.guard = some n ∧ 4 ≤ n) ∧
      (.clearBreakDelayEnd ∈ t.pending ↔ ∃ n, t.line.trgDelay = some n ∧ 6 ≤ n) ∧
      (.breakPulseEnd .frame ∈ t.pending ↔ ∃ n, t.line.framePulse = some n ∧ 40 ≤ n) ∧
      (.breakPulseEnd .clear ∈ t.pending ↔ ∃ n, t.line.clearPulse = some n ∧ 200 ≤ n) ∧
      (.clearBreakClassification ∈ t.pending ↔ ∃ n, t.line.measure = .timing n ∧ 100 ≤ n) ∧
      (.offerAssert ∈ t.pending ↔ t.hs.setUp = some 2) ∧
      (.completionWindowEnd ∈ t.pending ↔
        ∃ n, t.hs.window = some n ∧ 2 ≤ n ∧ t.hs.complete = false) ∧
      (.ownHoldEnd ∈ t.pending ↔ ∃ n, t.hs.window = some n ∧ 4 ≤ n ∧ t.hs.complete = true) ∧
      (.stallTimerExpiry ∈ t.pending ↔
        (∃ n, t.hs.stall = some n ∧ t.ctl.configuration.stallLimit * 200 ≤ n) ∧
          t.hs.setUp = none) ∧
      (.silenceTimerExpiry ∈ t.pending ↔
        t.hs.silence = some (t.ctl.configuration.silenceLimit * 2000)) ∧
      (.wonHoldEnd ∈ t.pending ↔
        t.arb.phase = .won ∧ ∃ n, t.arb.settle = some n ∧ 22 ≤ n) ∧
      (.roundGapExpiry ∈ t.pending ↔ ∃ n, t.arb.roundGap = some n ∧ 40 ≤ n) ∧
      (.fireDelayEnd ∈ t.pending ↔ ∃ at' n, t.rdv.view.fire = .pending at' n ∧ 4 ≤ n) ∧
      (.firePulseEnd ∈ t.pending ↔ ∃ n, t.rdv.firePulse = some n ∧ 20 ≤ n) ∧
      (.deadlineExpiry ∈ t.pending ↔
        ∃ n, t.rdv.view.timer = some n ∧ (t.rdv.view.deadline.getD 0).toNat * 20000 ≤ n) ∧
      (.busyEnd ∈ t.pending ↔ ∃ n, t.port.busyTime = some n ∧ 80 ≤ n) ∧
      (∀ place, .agedFlagSet place ∈ t.pending ↔
        t.ctl.configuration.ageLimit ≠ 0 ∧ t.refPhase = 0 ∧
          ∃ r, t.rm.records[place]? = some r ∧ r.aged = false ∧
            (t.ctl.clock - r.completedAt).toNat = t.ctl.configuration.ageLimit * 1000) ∧
      (∀ req trg, .participationBegin req trg ∈ t.pending ↔
        t.ctl.state = .joining ∧ t.ctl.joinPhase = some .awaitClear ∧
          t.line.sense.own = false ∧ t.line.sense.brk = false ∧
          t.ctl.resetInProgress = false ∧ req = t.line.sense.req ∧ trg = t.line.sense.trg) ∧
      (.left ∈ t.pending ↔
        t.ctl.state = .leaving ∧ clearOfBus t = true ∧ t.ctl.resetInProgress = false) ∧
      (.joinAbandoned ∈ t.pending ↔
        t.ctl.state = .joining ∧ t.ctl.joinPhase = some .participating ∧
          t.ctl.leaveRequested = true ∧ clearOfBus t = true ∧ t.tm.slot = none ∧
          t.ctl.resetInProgress = false))

/-- Every command answers a next state from every state, and leaves the queue as it is; that no command stops is the model's choice (log 32). While RESET# is low or the supply is missing, a command other than the three of reset and supply changes nothing; that a command without supply is not taken is the model's reading (log 21). -/
def Obligations.CommandsAnswerAndNeedPower : Prop :=
  (∀ (c : Instr) (s : State),
    ∃ t, exec c s = .next t ∧ t.pending = s.pending ∧ t.freeIndex = s.freeIndex) ∧
  ∀ (c : Instr) (s : State), ¬ Running s → c ≠ .resetAssert → c ≠ .lossOfPower →
    (∀ straps, c ≠ .resetRelease straps) → exec c s = .next s

/-- RESET# and the supply: at an assertion and at a loss of power every line is released and nothing is kept of the station's state; at the release every block has its power-on values, with the number on the straps. That the model shows the power-on values, with the station number it had, already while RESET# is low or the supply is missing is its own reading (log 21), and so is that the queue of commands, which belongs to no block, goes through (log 7). The values after power-on reset that the spec gives. -/
def Obligations.ResetGivesPowerOnValues : Prop :=
  (∀ (s : State) (straps : StationNumber),
    (s.power ≠ .off → exec .resetAssert s =
      .next (State.powerOn s.ctl.number .held s.freeIndex s.pending)) ∧
    exec .lossOfPower s = .next (State.powerOn s.ctl.number .off s.freeIndex s.pending) ∧
    (s.power ≠ .running → exec (.resetRelease straps) s =
      .next (State.powerOn straps .running s.freeIndex s.pending))) ∧
  State.reset.ctl.state = .offline ∧ State.reset.ctl.joinPhase = none ∧
  State.reset.ctl.leaveRequested = false ∧ State.reset.ctl.resetInProgress = false ∧
  State.reset.ctl.clock = 0 ∧ State.reset.ctl.configuration =
    { stallLimit := 20, silenceLimit := 10, retryLimit := 3, receiveReserve := 32,
      notifyThreshold := 1, ageLimit := 0, unicast := .lenient, broadcast := .lenient } ∧
  (∀ g : Fin 16, State.reset.ctl.subscriptions[g] = none) ∧
  State.reset.line.drive = Lines.released ∧ State.reset.line.measure = .idle ∧
  State.reset.hs.role = .none ∧ State.reset.hs.stall = none ∧ State.reset.hs.silence = none ∧
  State.reset.arb = { phase := .off, bid := none, settle := none, roundFlag := false, roundGap := none } ∧
  State.reset.fe.frame.position = .none ∧ State.reset.fe.comparator = none ∧
  (∀ i : Fin 16, State.reset.tm.table[i].state = .free) ∧ State.reset.tm.urgent = [] ∧
  State.reset.tm.normal = [] ∧ State.reset.tm.completion = [] ∧ State.reset.tm.slot = none ∧
  State.reset.rm.state = .idle ∧ State.reset.rm.construction = none ∧
  State.reset.rm.records = [] ∧ State.reset.rm.sequence = 0x00 ∧
  State.reset.mem.pool = List.range 128 ∧ transmitHeld State.reset = 0 ∧
  receiveHeld State.reset = 0 ∧ State.reset.rdv.view.state = .none ∧
  State.reset.rdv.noted = none ∧ State.reset.rdv.outcomes = [] ∧
  State.reset.rdv.firePulse = none ∧ State.reset.port.phase = .command ∧
  State.reset.port.abandonHeld = false ∧ State.reset.cause.port = false ∧
  State.reset.cause.station = false ∧ State.reset.cause.bus = false ∧
  State.reset.cause.reason = none ∧ State.reset.cause.mask = 0 ∧ State.reset.cause.int = false ∧
  State.reset.cause.counters = Counters.zero

/-! ### Accesses of the host port -/

/-- COMMAND_BYTE_WRITE in COMMAND: a command with parameters enters PARAM; one without is answered by its owner; an unknown code gives INVALID and tells no block. PARAMETER_BYTE_WRITE in PARAM: a byte that is not the last is kept; the last one hands the command with all its parameters to its owner and enters BUSY. The eighteen command codes with their numbers of parameter bytes, every other code being unknown, and the codes of class, policy and subscription mode that parameters carry. -/
def Obligations.CommandAndParameterBytes : Prop :=
  (∀ (b : Byte) (s : State), PortFree s →
    (∀ n, parameterCount b = some (n + 1) →
      NextIs (.commandByteWrite b) s { s with
        port := { HostPort.idle with phase := .param, command := some b, toCome := n + 1 } }) ∧
    (∀ c, commandOfCode b = some c → parametersOf c = 0 →
      (ownerAction c [] s).2 ≠ .resetDone →
      NextIs (.commandByteWrite b) s { (ownerAction c [] s).1 with
        port := HostPort.busyWith (some b) (ownerAction c [] s).2 }) ∧
    (commandOfCode b = none →
      NextIs (.commandByteWrite b) s { s with
        port := HostPort.busyWith (some b) (.result [0x01]) })) ∧
  (∀ (b : Byte) (s : State), Running s → s.port.phase = .param →
    (2 ≤ s.port.toCome →
      NextIs (.parameterByteWrite b) s { s with
        port.parameters := s.port.parameters ++ [b]
        port.toCome := s.port.toCome - 1
        port.driven := none }) ∧
    (∀ code c, s.port.toCome = 1 → s.port.command = some code → commandOfCode code = some c →
      (ownerAction c (s.port.parameters ++ [b]) s).2 ≠ .resetDone →
      NextIs (.parameterByteWrite b) s { (ownerAction c (s.port.parameters ++ [b]) s).1 with
        port := HostPort.busyWith (some code) (ownerAction c (s.port.parameters ++ [b]) s).2 })) ∧
  (∀ (b : Byte) (c : HostCommand) (n : Nat),
    (commandOfCode b = some c ∧ parametersOf c = n) ↔
      (b, c, n) ∈ ([(0x01, .configure, 8), (0x02, .setGroup, 2), (0x03, .join, 0),
        (0x04, .leave, 0), (0x10, .send, 6), (0x11, .withdraw, 1), (0x12, .reap, 0),
        (0x20, .fetch, 0), (0x21, .discard, 0), (0x30, .openRdv, 4), (0x31, .arm, 0),
        (0x32, .cancel, 0), (0x33, .outcome, 0), (0x40, .causes, 0), (0x41, .acknowledge, 1),
        (0x42, .setMask, 1), (0x43, .snapshot, 1), (0x7F, .softReset, 0)] :
          List (Byte × HostCommand × Nat))) ∧
  (∀ b : Byte, parameterCount b = (commandOfCode b).map parametersOf) ∧
  (∀ (b : Byte) (c : TxClass),
    classOfCode b = some c ↔ (b = 0x00 ∧ c = .normal) ∨ (b = 0x01 ∧ c = .urgent)) ∧
  (∀ (b : Byte) (p : Policy),
    policyOfCode b = some p ↔ (b = 0x01 ∧ p = .strict) ∨ (b = 0x02 ∧ p = .lenient)) ∧
  ∀ (b : Byte) (m : Option Policy),
    modeOfCode b = some m ↔
      (b = 0x00 ∧ m = none) ∨ (b = 0x01 ∧ m = some .strict) ∨ (b = 0x02 ∧ m = some .lenient)

/-- PAYLOAD_BYTE_WRITE in DATA_IN: the byte goes to its position of the FILLING descriptor and no other byte of the packet memory changes; the last one queues the descriptor at the tail of its class, tells the arbiter and enters BUSY with OK. -/
def Obligations.PayloadBytesFillTheDescriptor : Prop :=
  ∀ (b : Byte) (s : State) (i : Fin 16) (a : Nat), Running s → MemoryCanonical s →
    s.port.phase = .dataIn →
    findDescriptor s (·.state == .filling) = some i →
    payloadAddress s.tm.table[i].blocks (s.tm.table[i].length - s.port.dataInCount) = some a →
    ∃ cells, Memory.read cells a = b ∧
      (∀ x, x ≠ a → Memory.read cells x = Memory.read s.mem.cells x) ∧
      (2 ≤ s.port.dataInCount →
        NextIs (.payloadByteWrite b) s { s with
          mem.cells := cells
          port.dataInCount := s.port.dataInCount - 1
          port.driven := none }) ∧
      (s.port.dataInCount = 1 →
        NextIs (.payloadByteWrite b) s
          { askArbiter { s with
              mem.cells := cells
              tm.table := s.tm.table.set i { s.tm.table[i] with state := .queued }
              tm.urgent :=
                if s.tm.table[i].cls = .urgent then s.tm.urgent ++ [i] else s.tm.urgent
              tm.normal :=
                if s.tm.table[i].cls = .normal then s.tm.normal ++ [i] else s.tm.normal } with
            port := HostPort.busyWith s.port.command (.result [0x00]) })

/-- BUSY_END: BUSY goes to DATA_IN or RESULT with the reply the owner gave; a held ABANDON drops the result, or in DATA_IN frees the FILLING descriptor and returns its blocks (no frame waiting for room); the BUSY of a soft reset does not end here. -/
def Obligations.BusyEndsInTheOwnersReply : Prop :=
  ∀ s : State, Running s → s.port.phase = .busy →
    (∀ bytes, s.port.reply = some (.result bytes) → s.port.abandonHeld = false →
      NextIs .busyEnd s { s with
        port := { HostPort.idle with
          phase := .result, command := s.port.command, result := bytes,
          driven := s.port.driven } }) ∧
    (∀ n, s.port.reply = some (.dataIn n) → s.port.abandonHeld = false →
      NextIs .busyEnd s { s with
        port := { HostPort.idle with
          phase := .dataIn, command := s.port.command, dataInCount := n,
          driven := s.port.driven } }) ∧
    (∀ bytes, s.port.reply = some (.result bytes) → s.port.abandonHeld = true →
      NextIs .busyEnd s { s with rdv.reading := false, port := HostPort.idle }) ∧
    (∀ n i, s.port.reply = some (.dataIn n) → s.port.abandonHeld = true →
      findDescriptor s (·.state == .filling) = some i → NoRoomAwaited s →
      NextIs .busyEnd s { s with
        tm.table := s.tm.table.set i Descriptor.empty
        mem.pool := s.mem.pool ++ s.tm.table[i].blocks
        port := HostPort.idle }) ∧
    (s.port.reply = some .resetBusy → NextIs .busyEnd s s)

/-- RESULT_BYTE_READ: the byte at the read position is driven; the last byte ends the command, and after a status OK REAP frees the head descriptor, OUTCOME removes the oldest record it copied unless that record was dropped meanwhile, FETCH enters DATA_OUT for a kept length of 1 or more and removes the head record for a kept length of 0 (no frame waiting for room), and any other command ends with nothing further. -/
def Obligations.ResultBytesAreReadToTheEnd : Prop :=
  ∀ (s : State) (b : Byte), Running s → s.port.phase = .result →
    s.port.result[s.port.position]? = some b →
    let ended : State := { s with port := { HostPort.idle with driven := some b } }
    (s.port.position + 1 < s.port.result.length →
      NextIs .resultByteRead s { s with
        port.position := s.port.position + 1, port.driven := some b }) ∧
    (s.port.position + 1 = s.port.result.length →
      (s.port.result.head? ≠ some 0x00 → NextIs .resultByteRead s ended) ∧
      (s.port.result.head? = some 0x00 →
        (∀ i rest, s.port.command = some 0x12 → s.tm.completion = i :: rest →
          NextIs .resultByteRead s { ended with
            tm.completion := rest
            tm.table := s.tm.table.set i Descriptor.empty }) ∧
        (s.port.command = some 0x33 → s.rdv.reading = true →
          NextIs .resultByteRead s { ended with
            rdv.outcomes := s.rdv.outcomes.drop 1
            rdv.reading := false }) ∧
        (s.port.command = some 0x33 → s.rdv.reading = false →
          NextIs .resultByteRead s ended) ∧
        (∀ r rest, s.port.command = some 0x20 → s.rm.records = r :: rest →
          (1 ≤ r.keptLength →
            NextIs .resultByteRead s { s with
              port := { HostPort.idle with
                phase := .dataOut, command := some 0x20, dataOutCount := r.keptLength,
                driven := some b } }) ∧
          (r.keptLength = 0 → NoRoomAwaited s →
            NextIs .resultByteRead s { ended with
              rm.records := rest
              mem.pool := s.mem.pool ++ r.blocks })) ∧
        (∀ code c, s.port.command = some code → commandOfCode code = some c →
          c ≠ .reap → c ≠ .fetch → c ≠ .outcome → NextIs .resultByteRead s ended)))

/-- PAYLOAD_BYTE_READ: the bytes of the head record in order; at the last one, with no frame waiting for room, the record leaves the queue and its blocks join the tail of the pool. -/
def Obligations.PayloadBytesAreReadInOrder : Prop :=
  ∀ (s : State) (r : Record) (rest : List Record), Running s → s.port.phase = .dataOut →
    s.rm.records = r :: rest →
    (2 ≤ s.port.dataOutCount →
      NextIs .payloadByteRead s { s with
        port.dataOutCount := s.port.dataOutCount - 1
        port.driven :=
          some (readPayloadByte s.mem.cells r.blocks (r.keptLength - s.port.dataOutCount)) }) ∧
    (s.port.dataOutCount = 1 → NoRoomAwaited s →
      NextIs .payloadByteRead s { s with
        rm.records := rest
        mem.pool := s.mem.pool ++ r.blocks
        port := { HostPort.idle with
          driven := some (readPayloadByte s.mem.cells r.blocks (r.keptLength - 1)) } })

/-- ABANDON by the phase it finds, whatever byte it carries; it sets no PORT. Held in BUSY it acts when BUSY ends, on the phase BUSY would enter. In DATA_IN the FILLING descriptor becomes FREE and its blocks return to the pool, with the hand-over of the freeing that this brings; with no frame waiting for room the blocks join the tail of the pool and nothing more follows. -/
def Obligations.AbandonByPhase : Prop :=
  ∀ (b : Byte) (s : State), Running s →
    (s.port.phase = .command → NextIs (.abandon b) s { s with port.driven := none }) ∧
    (s.port.phase = .param → NextIs (.abandon b) s { s with port := HostPort.idle }) ∧
    (s.port.phase = .busy → s.port.reply ≠ some .resetBusy →
      NextIs (.abandon b) s { s with port.abandonHeld := true, port.driven := none }) ∧
    (s.port.phase = .busy → s.port.reply = some .resetBusy →
      NextIs (.abandon b) s { s with port.driven := none }) ∧
    (s.port.phase = .result →
      NextIs (.abandon b) s { s with rdv.reading := false, port := HostPort.idle }) ∧
    (s.port.phase = .dataOut → NextIs (.abandon b) s { s with port := HostPort.idle }) ∧
    (∀ bytes, s.port.phase = .busy → s.port.reply = some (.result bytes) →
      s.port.abandonHeld = true →
      NextIs .busyEnd s { s with rdv.reading := false, port := HostPort.idle }) ∧
    (∀ i, findDescriptor s (·.state == .filling) = some i →
      (s.port.phase = .dataIn →
        NextIs (.abandon b) s
          { freeBlocks s.tm.table[i].blocks
              { s with tm.table := s.tm.table.set i Descriptor.empty } with
            port := HostPort.idle }) ∧
      (∀ n, s.port.phase = .busy → s.port.reply = some (.dataIn n) →
        s.port.abandonHeld = true →
        NextIs .busyEnd s
          { freeBlocks s.tm.table[i].blocks
              { s with tm.table := s.tm.table.set i Descriptor.empty } with
            port := HostPort.idle }) ∧
      (s.port.phase = .dataIn → NoRoomAwaited s →
        NextIs (.abandon b) s { s with
          tm.table := s.tm.table.set i Descriptor.empty
          mem.pool := s.mem.pool ++ s.tm.table[i].blocks
          port := HostPort.idle }))

/-- A read of PHASE returns INT in bit 7, 0 in bits 6–3 and the phase code in bits 2–0; it is no command, so it changes no state and is never a protocol error. -/
def Obligations.PhaseByteShowsIntAndPhase : Prop :=
  ∀ (s : State) (b : Byte) (p : PortPhase),
    (phaseByte s).getLsbD 7 = s.cause.int ∧
    (phaseByte s).extractLsb' 3 4 = 0 ∧
    (phaseByte s).extractLsb' 0 3 =
      (match s.port.phase with
        | .command => 0 | .param => 1 | .dataIn => 2 | .busy => 3 | .result => 4 | .dataOut => 5) ∧
    accessCommand false false true true b p = none

/-- An access is ignored with CS# high or with both strobes low; a write at PHASE is ABANDON; a DATA write is the command byte in COMMAND, a parameter byte in PARAM and a payload byte in DATA_IN, a DATA read is a result byte in RESULT and a payload byte in DATA_OUT, and a DATA access in a phase that does not take it is the protocol error. PROTOCOL_ERROR: the access sets PORT and changes nothing else; a read returns 00h. In the BUSY of a soft reset the same accesses are ignored, a read returns 00h, and PORT is not set. -/
def Obligations.AccessesFollowPinsAndPhase : Prop :=
  (∀ (rd wr a0 : Bool) (b : Byte) (p : PortPhase),
    accessCommand true rd wr a0 b p = none ∧ accessCommand false false false a0 b p = none ∧
    accessCommand false true false true b p = some (.abandon b) ∧
    accessCommand false true false false b .command = some (.commandByteWrite b) ∧
    accessCommand false true false false b .param = some (.parameterByteWrite b) ∧
    accessCommand false true false false b .dataIn = some (.payloadByteWrite b) ∧
    accessCommand false false true false b .result = some .resultByteRead ∧
    accessCommand false false true false b .dataOut = some .payloadByteRead ∧
    (p = .busy ∨ p = .result ∨ p = .dataOut →
      accessCommand false true false false b p = some (.protocolError (.write b))) ∧
    (p = .command ∨ p = .param ∨ p = .dataIn ∨ p = .busy →
      accessCommand false false true false b p = some (.protocolError .read))) ∧
  (∀ (b : Byte) (s : State), Running s → s.port.reply ≠ some .resetBusy →
    (s.port.phase = .busy ∨ s.port.phase = .result ∨ s.port.phase = .dataOut →
      NextIs (.protocolError (.write b)) s
        { s with cause.port := true, port.driven := none }) ∧
    (s.port.phase = .command ∨ s.port.phase = .param ∨ s.port.phase = .dataIn ∨
        s.port.phase = .busy →
      NextIs (.protocolError .read) s
        { s with cause.port := true, port.driven := some 0x00 })) ∧
  ∀ (b : Byte) (s : State), Running s → s.port.phase = .busy →
    s.port.reply = some .resetBusy →
    NextIs (.protocolError (.write b)) s { s with port.driven := none } ∧
    NextIs (.protocolError .read) s { s with port.driven := some 0x00 }

/-! ### Station commands -/

/-- CONFIGURE in OFFLINE with every field in its range, a silence time greater than the stall time, a quota that holds the blocks of the descriptors and a retry limit that holds their attempts: all eight fields are replaced, every aged flag is evaluated anew, the result is OK. CONFIGURE and SET_GROUP outside OFFLINE are refused with BAD_STATE whatever their parameters; CONFIGURE in OFFLINE is refused with BAD_PARAM for any field outside its range, an undefined policy code, a silence time not greater than the stall time, a reserve whose quota does not hold the descriptors' blocks, or a retry limit that does not hold their attempts; SET_GROUP in OFFLINE for a group above 15 or an undefined mode; a refusal changes nothing. SET_GROUP in OFFLINE writes the one entry of its group. -/
def Obligations.ConfigureAndSetGroup : Prop :=
  (∀ (stall silence retry reserve notify age unicast broadcast : Byte) (u b : Policy) (s : State),
    PortFree s → s.ctl.state = .offline →
    1 ≤ stall.toNat → 1 ≤ silence.toNat → retry.toNat ≤ 7 → reserve.toNat ≤ 96 →
    1 ≤ notify.toNat → notify.toNat ≤ 32 → stall.toNat < silence.toNat * 10 →
    policyOfCode unicast = some u → policyOfCode broadcast = some b →
    transmitHeld s ≤ 128 - reserve.toNat →
    (∀ i : Fin 16, s.tm.table[i].state ≠ .free → s.tm.table[i].attempts ≤ retry.toNat + 1) →
    NextIs (.configure stall silence retry reserve notify age unicast broadcast) s
      { s with
        ctl.configuration :=
          { stallLimit := stall.toNat, silenceLimit := silence.toNat, retryLimit := retry.toNat,
            receiveReserve := reserve.toNat, notifyThreshold := notify.toNat,
            ageLimit := age.toNat, unicast := u, broadcast := b }
        rm.records := s.rm.records.map (fun r =>
          { r with
            aged := decide (age.toNat ≠ 0) &&
              decide (age.toNat * 1000 ≤ (s.ctl.clock - r.completedAt).toNat) })
        port := HostPort.busyWith (some 0x01) (.result [0x00]) }) ∧
  (∀ (a1 a2 a3 a4 a5 a6 a7 a8 : Byte) (s : State), PortFree s →
    (s.ctl.state ≠ .offline →
      NextIs (.configure a1 a2 a3 a4 a5 a6 a7 a8) s
        { s with port := HostPort.busyWith (some 0x01) (.result [0x02]) } ∧
      NextIs (.setGroup a1 a2) s
        { s with port := HostPort.busyWith (some 0x02) (.result [0x02]) }) ∧
    (s.ctl.state = .offline → 0x0F < a1.toNat ∨ modeOfCode a2 = none →
      NextIs (.setGroup a1 a2) s
        { s with port := HostPort.busyWith (some 0x02) (.result [0x03]) }) ∧
    (s.ctl.state = .offline →
      a1 = 0 ∨ a2 = 0 ∨ 7 < a3.toNat ∨ 96 < a4.toNat ∨ a5 = 0 ∨ 32 < a5.toNat ∨
        policyOfCode a7 = none ∨ policyOfCode a8 = none ∨ a2.toNat * 10 ≤ a1.toNat ∨
        128 - a4.toNat < transmitHeld s ∨
        (∃ i : Fin 16, s.tm.table[i].state ≠ .free ∧ a3.toNat + 1 < s.tm.table[i].attempts) →
      NextIs (.configure a1 a2 a3 a4 a5 a6 a7 a8) s
        { s with port := HostPort.busyWith (some 0x01) (.result [0x03]) })) ∧
  ∀ (group : Fin 16) (mode : Byte) (m : Option Policy) (s : State), PortFree s →
    s.ctl.state = .offline → modeOfCode mode = some m →
    NextIs (.setGroup (BitVec.ofNat 8 group) mode) s { s with
      ctl.subscriptions := s.ctl.subscriptions.set group m
      port := HostPort.busyWith (some 0x02) (.result [0x00]) }

/-- JOIN: accepted in OFFLINE with JOIN_STARTED, and in AWAIT_CLEAR while the lines it begins to sense show OWN or BRK asserted (what it finds on the lines is the model's own field, log 8; for a clear bus see the beginning of participation); refused with BAD_STATE and no change elsewhere. LEAVE: RDV_BUSY with a rendezvous held or the slot in use; LEAVING with LEAVE_STARTED while the station is not clear of the bus; a join is abandoned, its HELLO removed from the slot at once while QUEUED and by a removal request afterwards, and a station clear of the bus is OFFLINE in the LEAVE itself; a second LEAVE in a join that is being abandoned answers OK and changes nothing; BAD_STATE where there is nothing to leave. -/
def Obligations.JoinAndLeaveByStationState : Prop :=
  (∀ s : State, PortFree s →
    (s.ctl.state = .offline → s.pins.own = true ∨ s.pins.brk = true →
      NextIs .join s { s with
        line.sense.own := s.pins.own
        line.sense.req := s.pins.req
        line.sense.brk := s.pins.brk
        line.sense.trg := s.pins.trg
        ctl.state := .joining
        ctl.joinPhase := some .awaitClear
        ctl.leaveRequested := false
        cause.station := true
        cause.reason := some .joinStarted
        port := HostPort.busyWith (some 0x03) (.result [0x00]) }) ∧
    (s.ctl.state ≠ .offline →
      NextIs .join s { s with port := HostPort.busyWith (some 0x03) (.result [0x02]) })) ∧
  ∀ s : State, PortFree s →
    (s.ctl.state = .online → viewHoldsRendezvous s.rdv.view = true ∨ s.tm.slot ≠ none →
      NextIs .leave s { s with port := HostPort.busyWith (some 0x04) (.result [0x0A]) }) ∧
    (s.ctl.state = .online → viewHoldsRendezvous s.rdv.view = false → s.tm.slot = none →
      clearOfBus s = false →
      NextIs .leave s { s with
        ctl.state := .leaving
        cause.station := true
        cause.reason := some .leaveStarted
        port := HostPort.busyWith (some 0x04) (.result [0x00]) }) ∧
    (s.ctl.state = .joining → s.ctl.joinPhase = some .participating →
      s.ctl.leaveRequested = false → clearOfBus s = false →
      (∀ f, s.tm.slot = some f → f.state ≠ .queued →
        NextIs .leave s { s with
          ctl.leaveRequested := true
          tm.slot := some { f with removal := true }
          port := HostPort.busyWith (some 0x04) (.result [0x00]) }) ∧
      (∀ f, s.tm.slot = some f → f.state = .queued →
        NextIs .leave s { s with
          ctl.leaveRequested := true
          tm.slot := none
          port := HostPort.busyWith (some 0x04) (.result [0x00]) })) ∧
    (s.ctl.state = .joining → s.ctl.joinPhase = some .participating →
      s.ctl.leaveRequested = false → clearOfBus s = true → s.ctl.resetInProgress = false →
      s.rm.state = .idle → viewHoldsRendezvous s.rdv.view = false → selectedFrame s = none →
      ∀ f, s.tm.slot = some f → f.state = .queued →
        ∃ t, exec .leave s = .next t ∧ LeftTheBus s t .offline .joinAbandoned ∧
          t.rdv.outcomes = s.rdv.outcomes ∧ t.cause.counters = s.cause.counters ∧
          t.port = HostPort.busyWith (some 0x04) (.result [0x00])) ∧
    (s.ctl.state = .joining → s.ctl.leaveRequested = true →
      NextIs .leave s { s with port := HostPort.busyWith (some 0x04) (.result [0x00]) }) ∧
    (s.ctl.state = .offline ∨ s.ctl.state = .leaving ∨ s.ctl.state = .faulted →
      NextIs .leave s { s with port := HostPort.busyWith (some 0x04) (.result [0x02]) })

/-- A station clear of the bus, its slot EMPTY, goes OFFLINE: LEAVING with LEFT, an ONLINE one in the LEAVE itself, a join that was asked to leave with JOIN_ABANDONED, and, whatever it senses on the bus, a join in AWAIT_CLEAR in the LEAVE itself. -/
def Obligations.ClearStationsGoOffline : Prop :=
  (∀ s : State, Running s → clearOfBus s = true → s.tm.slot = none → s.ctl.resetInProgress = false →
    s.rm.state = .idle → viewHoldsRendezvous s.rdv.view = false → selectedFrame s = none →
    (s.ctl.state = .leaving → ∃ t, exec .left s = .next t ∧ LeftTheBus s t .offline .left ∧
      t.rdv.outcomes = s.rdv.outcomes ∧ t.cause.counters = s.cause.counters ∧
      t.port = s.port) ∧
    (s.ctl.state = .online → s.port.phase = .command →
      ∃ t, exec .leave s = .next t ∧ LeftTheBus s t .offline .left ∧
        t.rdv.outcomes = s.rdv.outcomes ∧ t.cause.counters = s.cause.counters ∧
        t.port = HostPort.busyWith (some 0x04) (.result [0x00])) ∧
    (s.ctl.state = .joining → s.ctl.joinPhase = some .participating →
      s.ctl.leaveRequested = true →
      ∃ t, exec .joinAbandoned s = .next t ∧ LeftTheBus s t .offline .joinAbandoned ∧
        t.rdv.outcomes = s.rdv.outcomes ∧ t.cause.counters = s.cause.counters ∧
        t.port = s.port)) ∧
  ∀ s : State, PortFree s → s.ctl.state = .joining → s.ctl.joinPhase = some .awaitClear →
    s.ctl.leaveRequested = false → s.tm.slot = none → s.rm.state = .idle →
    viewHoldsRendezvous s.rdv.view = false → selectedFrame s = none →
    ∃ t, exec .leave s = .next t ∧ LeftTheBus s t .offline .joinAbandoned ∧
      t.rdv.outcomes = s.rdv.outcomes ∧ t.cause.counters = s.cause.counters ∧
      t.port = HostPort.busyWith (some 0x04) (.result [0x00])

/-- SOFT_RESET in OFFLINE and FAULTED clears the station in the command's own action: tables, queues, view, sticky causes and counters are cleared, every block is in the pool, the port is in COMMAND without a result, and STATION with RESET is set unless the station was OFFLINE; configuration, subscriptions, mask, number and clock are kept. SOFT_RESET on the bus, with no guard, no TRG delay and no clear break of its own running: reset-in-progress, the port stays BUSY, and the 10 µs pulse begins, BRK sensed or not. -/
def Obligations.SoftResetByStationState : Prop :=
  (∀ s : State, PortFree s → s.ctl.state = .offline ∨ s.ctl.state = .faulted →
    NextIs .softReset s { s with
      line := LineInterface.quiet
      hs := Handshake.idle
      arb := Arbiter.off
      fe := FrameEngine.idle
      tm := TransmitManager.cleared
      rm := ReceiveManager.cleared
      mem.pool := s.mem.pool ++ descriptorBlocks s ++ recordBlocks s ++ constructionBlocks s
      rdv := RendezvousUnit.cleared
      ctl.state := .offline
      ctl.joinPhase := none
      ctl.leaveRequested := false
      ctl.resetInProgress := false
      ctl.pendingFault := none
      port := HostPort.idle
      cause :=
        { s.cause with
          port := false, station := decide (s.ctl.state ≠ .offline), bus := false,
          reason := if s.ctl.state = .offline then none else some .reset,
          counters := Counters.zero } }) ∧
  ∀ s : State, PortFree s → senses s = true → s.line.guard = none → s.line.trgDelay = none →
    s.line.clearPulse = none →
    NextIs .softReset s { s with
      ctl.resetInProgress := true
      line.clearPulse := some 0
      line.drive.brk := true
      port := HostPort.busyWith (some 0x7F) .resetBusy }

/-! ### Transmission commands -/

/-- SEND with every test passed: the lowest-numbered FREE entry takes the frame with attempts 0 and its blocks from the head of the pool. A length of 1 or more goes on to the data phase; a frame of length 0 is queued at the tail of its class at once. SEND refused, by the first test that fails: BAD_STATE in FAULTED, BAD_PARAM, DUP_TAG, TABLE_FULL, NO_SPACE; nothing changes. -/
def Obligations.SendTakesTheLowestFreeEntry : Prop :=
  (∀ (tag cls destination flags lengthHigh lengthLow : Byte) (c : TxClass) (i : Fin 16)
    (length : Nat) (s : State), PortFree s → s.ctl.state ≠ .faulted →
    length = (word16 lengthHigh lengthLow).toNat → length ≤ 1024 →
    classOfCode cls = some c → isDefinedAddress destination = true →
    destination ≠ numberByte s.ctl.number →
    (∀ j : Fin 16, s.tm.table[j].state ≠ .free → s.tm.table[j].tag ≠ tag) →
    s.tm.table[i].state = .free → (∀ j : Fin 16, j < i → s.tm.table[j].state ≠ .free) →
    transmitHeld s + (length + 63) / 64 ≤ 128 - s.ctl.configuration.receiveReserve →
    (length + 63) / 64 ≤ s.mem.pool.length →
    (1 ≤ length →
      NextIs (.send tag cls destination flags lengthHigh lengthLow) s { s with
        tm.table := s.tm.table.set i
          { state := .filling, tag := tag, cls := c, destination := destination,
            compress := flags.getLsbD 0, length := length,
            blocks := s.mem.pool.take ((length + 63) / 64), attempts := 0, outcome := none,
            completedAt := none }
        mem.pool := s.mem.pool.drop ((length + 63) / 64)
        port := HostPort.busyWith (some 0x10) (.dataIn length) }) ∧
    (length = 0 →
      NextIs (.send tag cls destination flags lengthHigh lengthLow) s
        { askArbiter { s with
            tm.table := s.tm.table.set i
              { state := .queued, tag := tag, cls := c, destination := destination,
                compress := flags.getLsbD 0, length := 0, blocks := [], attempts := 0,
                outcome := none, completedAt := none }
            tm.urgent := if c = .urgent then s.tm.urgent ++ [i] else s.tm.urgent
            tm.normal := if c = .normal then s.tm.normal ++ [i] else s.tm.normal } with
          port := HostPort.busyWith (some 0x10) (.result [0x00]) })) ∧
  ∀ (tag cls destination flags lengthHigh lengthLow : Byte) (s : State), PortFree s →
    (s.ctl.state = .faulted →
      NextIs (.send tag cls destination flags lengthHigh lengthLow) s
        { s with port := HostPort.busyWith (some 0x10) (.result [0x02]) }) ∧
    (s.ctl.state ≠ .faulted →
      classOfCode cls = none ∨ isDefinedAddress destination = false ∨
        destination = numberByte s.ctl.number ∨ 1024 < (word16 lengthHigh lengthLow).toNat →
      NextIs (.send tag cls destination flags lengthHigh lengthLow) s
        { s with port := HostPort.busyWith (some 0x10) (.result [0x03]) }) ∧
    (∀ c, s.ctl.state ≠ .faulted → classOfCode cls = some c →
      isDefinedAddress destination = true → destination ≠ numberByte s.ctl.number →
      (word16 lengthHigh lengthLow).toNat ≤ 1024 →
      (∀ i : Fin 16, s.tm.table[i].state ≠ .free → s.tm.table[i].tag = tag →
        NextIs (.send tag cls destination flags lengthHigh lengthLow) s
          { s with port := HostPort.busyWith (some 0x10) (.result [0x06]) }) ∧
      ((∀ i : Fin 16, s.tm.table[i].state ≠ .free ∧ s.tm.table[i].tag ≠ tag) →
        NextIs (.send tag cls destination flags lengthHigh lengthLow) s
          { s with port := HostPort.busyWith (some 0x10) (.result [0x05]) }) ∧
      (∀ i : Fin 16, s.tm.table[i].state = .free →
        (∀ j : Fin 16, s.tm.table[j].state ≠ .free → s.tm.table[j].tag ≠ tag) →
        128 - s.ctl.configuration.receiveReserve <
            transmitHeld s + ((word16 lengthHigh lengthLow).toNat + 63) / 64 ∨
          s.mem.pool.length < ((word16 lengthHigh lengthLow).toNat + 63) / 64 →
        NextIs (.send tag cls destination flags lengthHigh lengthLow) s
          { s with port := HostPort.busyWith (some 0x10) (.result [0x04]) }))

/-- WITHDRAW by the state of the descriptor that carries the tag. -/
def Obligations.WithdrawByDescriptorState : Prop :=
  ∀ (tag : Byte) (s : State), PortFree s →
    ((∀ i : Fin 16, s.tm.table[i].state ≠ .free → s.tm.table[i].tag ≠ tag) →
      NextIs (.withdraw tag) s
        { s with port := HostPort.busyWith (some 0x11) (.result [0x07]) }) ∧
    (∀ i : Fin 16, s.tm.table[i].tag = tag →
      (∀ j : Fin 16, j < i → s.tm.table[j].state ≠ .free → s.tm.table[j].tag ≠ tag) →
      (s.tm.table[i].state = .selected ∨ s.tm.table[i].state = .inFlight →
        NextIs (.withdraw tag) s
          { s with port := HostPort.busyWith (some 0x11) (.result [0x08]) }) ∧
      (s.tm.table[i].state = .filling ∨ s.tm.table[i].state = .done →
        NextIs (.withdraw tag) s
          { s with port := HostPort.busyWith (some 0x11) (.result [0x02]) }) ∧
      (s.tm.table[i].state = .queued → NoRoomAwaited s →
        NextIs (.withdraw tag) s { s with
          tm.table := s.tm.table.set i Descriptor.empty
          tm.urgent := s.tm.urgent.filter (· != i)
          tm.normal := s.tm.normal.filter (· != i)
          mem.pool := s.mem.pool ++ s.tm.table[i].blocks
          port := HostPort.busyWith (some 0x11) (.result [0x00]) }))

/-- REAP, FETCH and OUTCOME take a copy of the head of their list and change nothing in it; on an empty one the result is EMPTY. The codes their results carry: class, outcome of an attempt, status of a record, and role, outcome and reason of a rendezvous. -/
def Obligations.ReadersCopyTheHead : Prop :=
  ∀ s : State, PortFree s →
    (∀ i rest o t, s.tm.completion = i :: rest → s.tm.table[i].outcome = some o →
      s.tm.table[i].completedAt = some t →
      NextIs .reap s { s with
        port := HostPort.busyWith (some 0x12) (.result
          [0x00, s.tm.table[i].tag, classCode s.tm.table[i].cls, txOutcomeCode o,
            BitVec.ofNat 8 s.tm.table[i].attempts, t.extractLsb' 24 8, t.extractLsb' 16 8,
            t.extractLsb' 8 8, t.extractLsb' 0 8]) }) ∧
    (s.tm.completion = [] →
      NextIs .reap s { s with port := HostPort.busyWith (some 0x12) (.result [0x09]) }) ∧
    (∀ r rest, s.rm.records = r :: rest →
      NextIs .fetch s { s with
        port := HostPort.busyWith (some 0x20) (.result
          ([0x00, r.sequence, r.source, r.address, r.type, recordStatusCode r.status] ++
            bytes16 (BitVec.ofNat 16 r.fullLength) ++ bytes16 (BitVec.ofNat 16 r.keptLength) ++
            bytes32 r.completedAt)) }) ∧
    (s.rm.records = [] →
      NextIs .fetch s { s with port := HostPort.busyWith (some 0x20) (.result [0x09]) }) ∧
    (∀ r rest, s.rdv.outcomes = r :: rest →
      NextIs .outcome s { s with
        rdv.reading := true
        port := HostPort.busyWith (some 0x33) (.result
          ([0x00, r.tag, r.group, rdvRoleCode r.role, rdvOutcomeCode r.outcome,
            notOpenedCode r.reason,
            (if r.expiredHere then 0x01 else 0x00) ||| (if r.cancelSentHere then 0x02 else 0x00)] ++
            bytes32 (r.openedAt.getD 0) ++ bytes32 r.closedAt)) }) ∧
    (s.rdv.outcomes = [] →
      NextIs .outcome s { s with port := HostPort.busyWith (some 0x33) (.result [0x09]) }) ∧
    classCode .normal = 0x00 ∧ classCode .urgent = 0x01 ∧
    txOutcomeCode .sent = 0x01 ∧ txOutcomeCode .noListener = 0x02 ∧
    txOutcomeCode .stalled = 0x03 ∧ txOutcomeCode .broken = 0x04 ∧ txOutcomeCode .clash = 0x05 ∧
    recordStatusCode .complete = 0x01 ∧ recordStatusCode .truncated = 0x02 ∧
    recordStatusCode .malformed = 0x03 ∧
    rdvRoleCode .opener = 0x01 ∧ rdvRoleCode .member = 0x02 ∧
    rdvOutcomeCode .fired = 0x01 ∧ rdvOutcomeCode .cancelled = 0x02 ∧
    rdvOutcomeCode .broken = 0x03 ∧ rdvOutcomeCode .notOpened = 0x04 ∧
    notOpenedCode none = 0x00 ∧ notOpenedCode (some .lost) = 0x01 ∧
    notOpenedCode (some .noMembers) = 0x02 ∧ notOpenedCode (some .attempts) = 0x03

/-- DISCARD removes the head record, its blocks join the tail of the pool (no frame waiting for room), and no field of it is reported; on an empty queue the result is EMPTY. DISCARD while a STRICT frame waits: in SLOT_WAIT the freed slot is reserved, the record under construction is created and the participant releases WAIT; in BLOCK_WAIT with one copy to store the freed block is taken, the copy is stored and the participant releases WAIT. -/
def Obligations.DiscardRemovesTheHeadRecord : Prop :=
  (∀ s : State, PortFree s →
    (∀ r rest, s.rm.records = r :: rest → NoRoomAwaited s →
      NextIs .discard s { s with
        rm.records := rest
        mem.pool := s.mem.pool ++ r.blocks
        port := HostPort.busyWith (some 0x21) (.result [0x00]) }) ∧
    (s.rm.records = [] →
      NextIs .discard s { s with port := HostPort.busyWith (some 0x21) (.result [0x09]) })) ∧
  ∀ (r : Record) (rest : List Record) (l : Latch) (s : State), PortFree s →
    s.rm.records = r :: rest → rest.length < 32 → s.hs.role = .participant .preparing →
    s.line.sense.offer = false → s.hs.latch = some l → l.byte.last = false →
    (s.rm.state = .slotWait → s.rm.construction = none →
      NextIs .discard s { s with
        line.drive.wait := false
        hs.role := .participant .ready
        rm.records := rest
        rm.state := .storing
        rm.construction := some
          { source := s.fe.frame.source.getD 0, address := s.fe.frame.address.getD 0,
            type := typeData, blocks := [], keptLength := 0, fullLength := 0,
            status := .complete }
        mem.pool := s.mem.pool ++ r.blocks
        port := HostPort.busyWith (some 0x21) (.result [0x00]) }) ∧
    (∀ c v b more, s.rm.state = .blockWait → s.rm.construction = some c →
      s.rm.held = some { value := v, count := 1 } → c.keptLength = 64 * c.blocks.length →
      s.mem.pool = [] → r.blocks = b :: more →
      NextIs .discard s { s with
        line.drive.wait := false
        hs.role := .participant .ready
        rm.records := rest
        rm.state := .storing
        rm.held := none
        rm.construction := some { c with
          blocks := c.blocks ++ [b], keptLength := c.keptLength + 1 }
        mem.cells := Memory.write s.mem.cells (64 * b) v
        mem.pool := more
        port := HostPort.busyWith (some 0x21) (.result [0x00]) })

/-! ### Rendezvous commands -/

/-- OPEN: the three refusals in their order; accepted, it places the frame QUEUED in the slot, tells the arbiter and leaves the view in NONE. CANCEL: refused with BAD_STATE or NOT_MEMBER; merged with a CANCEL already in the slot; else a CANCEL for the view's group and tag is placed QUEUED and the arbiter is told. -/
def Obligations.OpenAndCancelPlaceAFrame : Prop :=
  (∀ (group tag high low : Byte) (s : State), PortFree s →
    (s.ctl.state ≠ .online →
      NextIs (.openRendezvous group tag high low) s
        { s with port := HostPort.busyWith (some 0x30) (.result [0x02]) }) ∧
    (s.ctl.state = .online → isRendezvousAddress group = false →
      NextIs (.openRendezvous group tag high low) s
        { s with port := HostPort.busyWith (some 0x30) (.result [0x03]) }) ∧
    (s.ctl.state = .online → isRendezvousAddress group = true →
      s.rdv.view.state ≠ .none ∨ s.tm.slot ≠ none →
      NextIs (.openRendezvous group tag high low) s
        { s with port := HostPort.busyWith (some 0x30) (.result [0x0A]) }) ∧
    (s.ctl.state = .online → isRendezvousAddress group = true → s.rdv.view.state = .none →
      s.tm.slot = none →
      NextIs (.openRendezvous group tag high low) s
        { askArbiter { s with
            tm.slot := some
              { state := .queued, kind := .openFrame group tag (high ++ low), attempts := 0,
                removal := false } } with
          port := HostPort.busyWith (some 0x30) (.result [0x00]) })) ∧
  ∀ s : State, PortFree s →
    (s.ctl.state ≠ .online →
      NextIs .cancel s { s with port := HostPort.busyWith (some 0x32) (.result [0x02]) }) ∧
    (s.ctl.state = .online →
      (s.rdv.view.state ≠ .waiting ∧ s.rdv.view.state ≠ .armed) ∨ s.rdv.view.closing = true →
      NextIs .cancel s { s with port := HostPort.busyWith (some 0x32) (.result [0x0B]) }) ∧
    (∀ group tag, s.ctl.state = .online →
      s.rdv.view.state = .waiting ∨ s.rdv.view.state = .armed → s.rdv.view.closing = false →
      s.rdv.view.group = some group → s.rdv.view.tag = some tag →
      (∀ f, s.tm.slot = some f →
        NextIs .cancel s { s with port := HostPort.busyWith (some 0x32) (.result [0x00]) }) ∧
      (s.tm.slot = none →
        NextIs .cancel s
          { askArbiter { s with
              tm.slot := some
                { state := .queued, kind := .cancelFrame group tag, attempts := 0,
                  removal := false } } with
            port := HostPort.busyWith (some 0x32) (.result [0x00]) }))

/-- ARM by the view: BAD_STATE outside ONLINE; ARMED with TRG released from WAITING; pending-arm under freeze or in a holding CANCELLING view; refused elsewhere. A rising edge on the ARM pin acts as ARM does, in any station state, with no result; it is ignored in every other view and during a soft reset. -/
def Obligations.ArmByView : Prop :=
  (∀ s : State, PortFree s →
    (s.ctl.state ≠ .online →
      NextIs .arm s { s with port := HostPort.busyWith (some 0x31) (.result [0x02]) }) ∧
    (s.ctl.state = .online → s.ctl.resetInProgress = false → s.rdv.view.state = .waiting →
      s.rdv.view.freeze = false → s.rdv.view.closing = false →
      NextIs .arm s { s with
        rdv.view.state := .armed
        line.drive.trg := false
        port := HostPort.busyWith (some 0x31) (.result [0x00]) }) ∧
    (s.ctl.state = .online →
      (s.rdv.view.state = .waiting ∧ s.rdv.view.freeze = true ∧ s.rdv.view.closing = false) ∨
        (s.rdv.view.state = .cancelling ∧ s.line.drive.trg = true) →
      NextIs .arm s { s with
        rdv.view.pendingArm := true
        port := HostPort.busyWith (some 0x31) (.result [0x0C]) }) ∧
    (s.ctl.state = .online →
      (s.rdv.view.state = .waiting ∧ s.rdv.view.closing = true) ∨
        (s.rdv.view.state = .cancelling ∧ s.line.drive.trg = false) ∨
        s.rdv.view.state = .none ∨ s.rdv.view.state = .provisional ∨
        s.rdv.view.state = .armed ∨ s.rdv.view.state = .observing →
      NextIs .arm s { s with port := HostPort.busyWith (some 0x31) (.result [0x02]) })) ∧
  ∀ s : State, Running s →
    (s.ctl.resetInProgress = false → s.rdv.view.state = .waiting → s.rdv.view.freeze = false →
      s.rdv.view.closing = false →
      NextIs .armPinEdge s { s with rdv.view.state := .armed, line.drive.trg := false }) ∧
    (s.ctl.resetInProgress = false →
      (s.rdv.view.state = .waiting ∧ s.rdv.view.freeze = true ∧ s.rdv.view.closing = false) ∨
        (s.rdv.view.state = .cancelling ∧ s.line.drive.trg = true) →
      NextIs .armPinEdge s { s with rdv.view.pendingArm := true }) ∧
    (s.ctl.resetInProgress = true ∨ s.rdv.view.state = .none ∨ s.rdv.view.state = .provisional ∨
        s.rdv.view.state = .armed ∨ s.rdv.view.state = .observing ∨
        (s.rdv.view.state = .waiting ∧ s.rdv.view.closing = true) ∨
        (s.rdv.view.state = .cancelling ∧ s.line.drive.trg = false) →
      NextIs .armPinEdge s s)

/-! ### Commands of the cause unit -/

/-- CAUSES and SNAPSHOT report copies; SNAPSHOT with its clear flag clears the seven counters after the copy; nothing else changes. ACKNOWLEDGE clears exactly the sticky bits it names, with STATION the reason; SET_MASK replaces the six enables; bits 7–6 are not examined. The places of the six causes in the cause byte, and the codes of station state, view state and station reason. -/
def Obligations.CauseUnitCommands : Prop :=
  (∀ (flags : Byte) (s : State), PortFree s →
    NextIs .causes s { s with
      port := HostPort.busyWith (some 0x40)
        (.result [0x00, pendingSet s.cause, highestCause s.cause, reasonCode s.cause.reason]) } ∧
    NextIs (.snapshot flags) s { s with
      cause.counters := if flags.getLsbD 0 then Counters.zero else s.cause.counters
      port := HostPort.busyWith (some 0x43) (.result
        ([0x00, stationStateCode s.ctl.state, numberByte s.ctl.number,
          viewStateCode s.rdv.view.state, BitVec.ofNat 8 (freeCount s),
          BitVec.ofNat 8 (transmitHeld s), BitVec.ofNat 8 (receiveHeld s),
          BitVec.ofNat 8 (descriptorsInUse s), BitVec.ofNat 8 s.rm.records.length] ++
          bytes32 s.ctl.clock ++ bytes16 s.cause.counters.frameBreaks ++
          bytes16 s.cause.counters.clearBreaks ++ bytes16 s.cause.counters.framesDropped ++
          bytes16 s.cause.counters.recordsTruncated ++
          bytes16 s.cause.counters.recordsMalformed ++ bytes16 s.cause.counters.outcomesLost ++
          bytes16 s.cause.counters.duplicates)) }) ∧
  (∀ (b : Byte) (s : State), PortFree s →
    NextIs (.acknowledge b) s { s with
      cause.port := s.cause.port && !b.getLsbD 5
      cause.station := s.cause.station && !b.getLsbD 4
      cause.bus := s.cause.bus && !b.getLsbD 3
      cause.reason := if b.getLsbD 4 then none else s.cause.reason
      port := HostPort.busyWith (some 0x41) (.result [0x00]) } ∧
    NextIs (.setMask b) s { s with
      cause.mask := b &&& 0x3F
      port := HostPort.busyWith (some 0x42) (.result [0x00]) }) ∧
  (∀ c : CauseUnit,
    (pendingSet c).getLsbD 7 = false ∧ (pendingSet c).getLsbD 6 = false ∧
    (pendingSet c).getLsbD 5 = c.port ∧ (pendingSet c).getLsbD 4 = c.station ∧
    (pendingSet c).getLsbD 3 = c.bus ∧ (pendingSet c).getLsbD 2 = c.rendezvous ∧
    (pendingSet c).getLsbD 1 = c.receive ∧ (pendingSet c).getLsbD 0 = c.complete) ∧
  stationStateCode .offline = 0x00 ∧ stationStateCode .joining = 0x01 ∧
  stationStateCode .online = 0x02 ∧ stationStateCode .leaving = 0x03 ∧
  stationStateCode .faulted = 0x04 ∧
  viewStateCode .none = 0x00 ∧ viewStateCode .provisional = 0x01 ∧
  viewStateCode .waiting = 0x02 ∧ viewStateCode .armed = 0x03 ∧
  viewStateCode .cancelling = 0x04 ∧ viewStateCode .observing = 0x05 ∧
  reasonCode none = 0x00 ∧ reasonCode (some .joinStarted) = 0x01 ∧
  reasonCode (some .joined) = 0x02 ∧ reasonCode (some .joinAbandoned) = 0x03 ∧
  reasonCode (some .duplicate) = 0x04 ∧ reasonCode (some .noJoin) = 0x05 ∧
  reasonCode (some .clash) = 0x06 ∧ reasonCode (some .leaveStarted) = 0x07 ∧
  reasonCode (some .left) = 0x08 ∧ reasonCode (some .reset) = 0x09 ∧
  reasonCode (some .duplicateSeen) = 0x0A

/-- The highest byte of CAUSES: one bit, of a cause both pending and enabled, with no such cause above it; 00h exactly when INT is released. -/
def Obligations.HighestCauseIsTheTopEnabledOne : Prop :=
  ∀ c : CauseUnit, (highestCause c = 0x00 ↔ intAsserted c = false) ∧
    ∀ k : Nat, (highestCause c).getLsbD k = true →
      (pendingSet c).getLsbD k = true ∧ c.mask.getLsbD k = true ∧
      ∀ j : Nat, k < j → ((pendingSet c).getLsbD j && c.mask.getLsbD j) = false

/-! ### Arbitration -/

/-- The frame a station may bid with: the slot's QUEUED frame, then the urgent head, then the normal head while the round flag is clear; in JOINING with participation begun the slot's alone, before that none; none in the other states. An arbiter that asks: from STANDBY with an eligible frame the bus is requested in one action, the frame passes from QUEUED to SELECTED and a descriptor leaves its queue, the bid is driven as the levels sensed on D0–D7 allow, and the settle timer starts; without one, or from another phase, nothing changes. -/
def Obligations.EligibleFrameIsRequested : Prop :=
  (∀ s : State,
    (s.ctl.state = .online → ∀ f, s.tm.slot = some f → f.state = .queued →
      eligibleFrame s = some .slot) ∧
    (s.ctl.state = .online → (∀ f, s.tm.slot = some f → f.state ≠ .queued) →
      (∀ i rest, s.tm.urgent = i :: rest → eligibleFrame s = some (.descriptor i)) ∧
      (s.tm.urgent = [] → s.arb.roundFlag = true → eligibleFrame s = none) ∧
      (∀ i rest, s.tm.urgent = [] → s.arb.roundFlag = false → s.tm.normal = i :: rest →
        eligibleFrame s = some (.descriptor i)) ∧
      (s.tm.urgent = [] → s.tm.normal = [] → eligibleFrame s = none)) ∧
    (s.ctl.state = .joining → s.ctl.joinPhase = some .participating →
      (∀ f, s.tm.slot = some f → f.state = .queued → eligibleFrame s = some .slot) ∧
      ((∀ f, s.tm.slot = some f → f.state ≠ .queued) → eligibleFrame s = none)) ∧
    (s.ctl.state = .joining → s.ctl.joinPhase ≠ some .participating →
      eligibleFrame s = none) ∧
    (s.ctl.state = .leaving ∨ s.ctl.state = .offline ∨ s.ctl.state = .faulted →
      eligibleFrame s = none)) ∧
  ∀ s : State,
    let bids (f : FrameRef) (t : State) : State := { t with
      line.drive.req := true
      line.drive.data := bidDrive (bidByte f s) s.line.sense.data
      arb.phase := .bidding
      arb.bid := some (bidByte f s)
      arb.settle := some 0
      arb.roundGap := none }
    (∀ i, s.arb.phase = .standby → eligibleFrame s = some (.descriptor i) →
      askArbiter s = bids (.descriptor i) { s with
        tm.table := s.tm.table.set i { s.tm.table[i] with state := .selected }
        tm.urgent := s.tm.urgent.filter (· ≠ i)
        tm.normal := s.tm.normal.filter (· ≠ i) }) ∧
    (∀ f, s.arb.phase = .standby → eligibleFrame s = some .slot → s.tm.slot = some f →
      askArbiter s = bids .slot { s with tm.slot := some { f with state := .selected } }) ∧
    (s.arb.phase ≠ .standby ∨ eligibleFrame s = none → askArbiter s = s)

/-- The bid byte: three separate ranges by kind of frame, the station number in bits 4–0, so that two stations of distinct numbers never bid alike, and a system slot bid exceeds any urgent bid, an urgent bid any normal bid. The drive of a bidder: line Dk is driven exactly when the bid has 1 in bit k and no line is sensed asserted at a higher position where the bid has 0. -/
def Obligations.BidBytesAndTheirDrive : Prop :=
  (∀ (f : FrameRef) (s : State),
    (bidByte f s).extractLsb' 0 5 = s.ctl.number ∧ (bidByte f s).getLsbD 5 = false ∧
    (f = .slot → 0x80 ≤ (bidByte f s).toNat ∧ (bidByte f s).toNat ≤ 0x9F) ∧
    (∀ i, f = .descriptor i → s.tm.table[i].cls = .urgent →
      0x40 ≤ (bidByte f s).toNat ∧ (bidByte f s).toNat ≤ 0x5F) ∧
    (∀ i, f = .descriptor i → s.tm.table[i].cls = .normal → (bidByte f s).toNat ≤ 0x1F)) ∧
  ∀ (bid sensed : Byte) (k : Nat), k < 8 →
    ((bidDrive bid sensed).getLsbD k = true ↔
      bid.getLsbD k = true ∧
        ∀ j : Nat, k < j → j < 8 → ¬ (bid.getLsbD j = false ∧ sensed.getLsbD j = true))

/-- BUS_IDLE_SENSED, REQ_SENSED, BID_LINE_CHANGE and ROUND_GAP_EXPIRY: an arbiter in OUTSIDE with no frame in progress enters STANDBY with its gap timer at zero and asks (that D0–D7 are sensed released there is the model's reading, log 11); in STANDBY a sensed REQ is joined with an eligible frame, which is then SELECTED and out of its queue, else OUTSIDE; in BIDDING the drive condition is applied again; the expired gap clears the round flag. -/
def Obligations.ArbiterFollowsTheBus : Prop :=
  ∀ (d : Byte) (s : State), OnBus s →
    let joins (f : FrameRef) (t : State) : State := { t with
      line.sense.req := true
      line.drive.req := true
      line.drive.data := bidDrive (bidByte f s) s.line.sense.data
      hs.silence := some 0
      arb.phase := .bidding
      arb.bid := some (bidByte f s)
      arb.settle := some 0
      arb.roundGap := none }
    (s.arb.phase = .outside → s.line.sense.brk = false → s.fe.frame.position = .none →
      NextIs .busIdleSensed s
        (askArbiter { s with
          line.sense.own := false
          line.sense.req := false
          line.sense.data := 0
          line.heldFrame := s.line.heldFrame.filter (· != .silence)
          hs.silence := none
          arb.phase := .standby
          arb.bid := none
          arb.settle := none
          arb.roundGap := some 0 })) ∧
    (s.arb.phase = .standby → s.hs.role = .participant .ready → s.hs.silence = none →
      s.line.sense.brk = false →
      (∀ i, eligibleFrame s = some (.descriptor i) →
        NextIs .reqSensed s (joins (.descriptor i) { s with
          tm.table := s.tm.table.set i { s.tm.table[i] with state := .selected }
          tm.urgent := s.tm.urgent.filter (· ≠ i)
          tm.normal := s.tm.normal.filter (· ≠ i) })) ∧
      (∀ f, eligibleFrame s = some .slot → s.tm.slot = some f →
        NextIs .reqSensed s (joins .slot { s with
          tm.slot := some { f with state := .selected } })) ∧
      (eligibleFrame s = none →
        NextIs .reqSensed s { s with
          line.sense.req := true
          hs.silence := some 0
          arb.phase := .outside
          arb.bid := none
          arb.settle := none
          arb.roundGap := none })) ∧
    (∀ bid, s.arb.phase = .bidding → s.arb.bid = some bid →
      NextIs (.bidLineChange d) s { s with
        line.sense.data := d
        line.drive.data := bidDrive bid d }) ∧
    (s.arb.phase = .standby → s.arb.roundGap ≠ none →
      NextIs .roundGapExpiry s
        (askArbiter { s with arb.roundFlag := false, arb.roundGap := none }))

/-- ARBITRATION_DECISION: the sample equals the bid and the station enters WON with its whole bid; or it releases REQ and D0–D7, its frame goes back and it enters OUTSIDE. -/
def Obligations.DecisionWinsOrLoses : Prop :=
  ∀ (d bid : Byte) (s : State), OnBus s → s.arb.phase = .bidding → s.arb.bid = some bid →
    (d = bid →
      NextIs (.arbitrationDecision d) s { s with
        line.sense.data := d
        line.drive.data := bid
        arb.phase := .won }) ∧
    (d ≠ bid → ∀ i, selectedFrame s = some (.descriptor i) →
      NextIs (.arbitrationDecision d) s { s with
        line.sense.data := d
        line.drive.req := false
        line.drive.data := 0
        arb.phase := .outside
        arb.bid := none
        arb.settle := none
        arb.roundGap := none
        tm.table := s.tm.table.set i { s.tm.table[i] with state := .queued }
        tm.urgent := if s.tm.table[i].cls = .urgent then i :: s.tm.urgent else s.tm.urgent
        tm.normal := if s.tm.table[i].cls = .normal then i :: s.tm.normal else s.tm.normal }) ∧
    (d ≠ bid → ∀ f, s.tm.slot = some f → f.state = .selected →
      NextIs (.arbitrationDecision d) s { s with
        line.sense.data := d
        line.drive.req := false
        line.drive.data := 0
        arb.phase := .outside
        arb.bid := none
        arb.settle := none
        arb.roundGap := none
        tm.slot := if f.removal then none else some { f with state := .queued } })

/-- WON_HOLD_END: OWN is asserted, REQ, the bid, PEND and WAIT are released, the station is TALKER in AWAIT_READY with its stall timer at zero, the attempt begins with the frame IN_FLIGHT and its attempts one higher, and a normal win sets the round flag; an urgent or a system slot win leaves it. -/
def Obligations.WinnerTakesTheBus : Prop :=
  ∀ s : State, OnBus s → s.arb.phase = .won →
    let taken : State := { s with
      line.drive.own := true
      line.drive.req := false
      line.drive.data := 0
      line.drive.pend := false
      line.drive.wait := false
      line.heldFrame := s.line.heldFrame.filter (· != .silence)
      arb.phase := .owner
      arb.bid := none
      arb.settle := none
      arb.roundGap := none
      hs.role := .talker .awaitReady
      hs.stall := some 0
      hs.silence := none
      hs.setUp := none
      hs.window := none
      hs.complete := false
      fe.frame := FrameState.started .talker
      fe.sentBytes := 0
      fe.comparator := none
      tm.handed := none }
    (∀ i : Fin 16, selectedFrame s = some (.descriptor i) →
      NextIs .wonHoldEnd s { taken with
        arb.roundFlag := s.arb.roundFlag || s.tm.table[i].cls == .normal
        tm.table := s.tm.table.set i
          { s.tm.table[i] with state := .inFlight, attempts := s.tm.table[i].attempts + 1 } }) ∧
    (∀ f, s.tm.slot = some f → f.state = .selected →
      NextIs .wonHoldEnd s { taken with
        tm.slot := some { f with state := .inFlight, attempts := f.attempts + 1 } })

/-! ### The byte handshake -/

/-- TAKE at a participant in READY: the byte goes into the latch, WAIT is asserted, PEND released, the phase is TAKEN, a running silence timer starts again, and the frame engine parses the byte. A participant that takes header byte 2 with its own number keeps PEND, enters HOLDING, counts the duplicate with DUPLICATE_SEEN, and with BRK released, no guard and no pulse of its own begins a 2 µs frame break; its station state does not change. That the frame state stays as it was before that byte is the model's reading (log 15). -/
def Obligations.ParticipantTakesOrHolds : Prop :=
  (∀ (b : BusByte) (s : State), OnBus s → s.hs.role = .participant .ready →
    isDuplicateSource s.ctl.number b s.fe.frame = false →
    ∃ t, exec (.take b) s = .next t ∧
      t.hs = { s.hs with
        role := .participant .taken
        latch := some { byte := b, position := s.fe.frame.position }
        silence := s.hs.silence.map (fun _ => 0) } ∧
      t.line.drive.wait = true ∧ t.line.drive.pend = false ∧ t.line.observed = some b ∧
      t.line.drive.req = s.line.drive.req ∧ t.line.drive.own = s.line.drive.own ∧
      t.line.drive.offer = s.line.drive.offer ∧ t.line.drive.brk = s.line.drive.brk ∧
      t.fe = { s.fe with
        frame := (parseByte s.ctl.number s.ctl.subscriptions b s.fe.frame).1 } ∧
      t.arb = s.arb ∧ t.tm = s.tm ∧ t.ctl = s.ctl ∧ t.port = s.port ∧
      t.rm.records = s.rm.records ∧ t.rdv.outcomes = s.rdv.outcomes ∧ KeepsCauses s t) ∧
  ∀ (b : BusByte) (s : State), OnBus s → s.hs.role = .participant .ready →
    s.line.drive.pend = true → isDuplicateSource s.ctl.number b s.fe.frame = true →
    s.line.sense.brk = false → s.line.guard = none → s.line.framePulse = none →
    NextIs (.take b) s { s with
      line.sense.offer := true
      line.sense.data := b.data
      line.sense.kind := b.kind
      line.sense.last := b.last
      line.observed := some b
      line.heldFrame := s.line.heldFrame.filter (· != .silence)
      line.drive.wait := true
      line.drive.brk := true
      line.framePulse := some 0
      hs.role := .participant .holding
      hs.latch := some { byte := b, position := s.fe.frame.position }
      hs.silence := s.hs.silence.map (fun _ => 0)
      cause.station := true
      cause.reason := some .duplicateSeen
      cause.counters.duplicates := countUp s.cause.counters.duplicates }

/-- OBSERVE at a bystander, and at a station in NONE, where a frame may have begun while BRK was asserted (that its events are handed there as a bystander's is the model's choice, log 42): the byte is sampled and parsed; nothing of the handshake is driven and the receive manager and packet memory are untouched. -/
def Obligations.BystanderObservesWithoutPacing : Prop :=
  ∀ (b : BusByte) (s : State), OnBus s → s.hs.role = .bystander ∨ s.hs.role = .none →
    ∃ t, exec (.observe b) s = .next t ∧ t.line.observed = some b ∧
      t.line.drive = s.line.drive ∧
      t.hs = { s.hs with silence := s.hs.silence.map (fun _ => 0) } ∧
      t.fe = { s.fe with
        frame := (parseByte s.ctl.number s.ctl.subscriptions b s.fe.frame).1 } ∧
      t.arb = s.arb ∧ t.tm = s.tm ∧ t.rm = s.rm ∧ t.mem = s.mem ∧ t.ctl = s.ctl ∧
      t.port = s.port ∧ KeepsCauses s t

/-- OFFER_RELEASE_SENSED at a participant in TAKEN: PEND is reasserted; a station that header byte 3 does not address becomes a bystander with WAIT and PEND released; a ready one releases WAIT and is in READY; after a LAST byte the completion window and the guard start and WAIT is kept. An addressed station after header byte 3 stays a participant, and for a DATA frame asks for a record slot with the policy of the address (the group's, the broadcast's or the unicast's): with a slot free it is reserved and the record under construction is created; with none a STRICT participant waits in SLOT_WAIT with WAIT asserted, and a LENIENT one drops the frame. At a bystander nothing of the handshake moves: after a LAST byte the completion window and the guard start, else it goes on observing. In NONE, where BRK is sensed asserted, the window fails at once: the frame is abandoned (that this is at the withdrawal is the model's choice, log 42). -/
def Obligations.ParticipantPreparesOrStandsAside : Prop :=
  (∀ (b : BusByte) (p : Position) (s : State), OnBus s → s.hs.role = .participant .taken →
    s.line.observed = some b → s.hs.latch = some { byte := b, position := p } →
    s.fe.frame.position ≠ .none → s.line.heldFrame = [] →
    let withdrawn : State := { s with
      line.sense.offer := false
      hs.silence := s.hs.silence.map (fun _ => 0) }
    let ready : State := { withdrawn with
      line.drive.wait := false
      line.drive.pend := true
      hs.role := .participant .ready }
    (b.last = false → p = .type → s.fe.frame.addressed = some false →
      NextIs .offerReleaseSensed s { withdrawn with
        line.drive.wait := false
        line.drive.pend := false
        hs.role := .bystander
        fe.frame.standing := some .bystander }) ∧
    (b.last = false → p ≠ .type → receptionWaits s = false →
      NextIs .offerReleaseSensed s ready) ∧
    (b.last = true → isTalker s = false →
      NextIs .offerReleaseSensed s { withdrawn with
        line.guard := some 0
        line.drive.pend := true
        hs.window := some 0
        hs.role := .participant .preparing }) ∧
    (b.last = false → p = .type → s.fe.frame.addressed = some true →
      (s.fe.frame.type ≠ some typeData → receptionWaits s = false →
        NextIs .offerReleaseSensed s { ready with fe.frame.standing := some .participant }) ∧
      (∀ adr src policy, s.fe.frame.type = some typeData → s.rm.state = .idle →
        s.rm.construction = none → s.fe.frame.address = some adr →
        s.fe.frame.source = some src →
        policy =
          (if isGroupAddress adr then (s.ctl.subscriptions[groupOf adr]).getD .lenient
           else if adr = 0x7F then s.ctl.configuration.broadcast
           else s.ctl.configuration.unicast) →
        (s.rm.records.length < 32 →
          NextIs .offerReleaseSensed s { ready with
            fe.frame.standing := some .participant
            rm.policy := some policy
            rm.state := .storing
            rm.construction := some
              { source := src, address := adr, type := typeData, blocks := [],
                keptLength := 0, fullLength := 0, status := .complete } }) ∧
        (32 ≤ s.rm.records.length → policy = .strict →
          NextIs .offerReleaseSensed s { withdrawn with
            line.drive.pend := true
            hs.role := .participant .preparing
            fe.frame.standing := some .participant
            rm.policy := some .strict
            rm.state := .slotWait }) ∧
        (32 ≤ s.rm.records.length → policy = .lenient →
          NextIs .offerReleaseSensed s { ready with
            fe.frame.standing := some .participant
            rm.policy := some .lenient
            rm.state := .dropping })))) ∧
  (∀ (b : BusByte) (s : State), OnBus s → s.hs.role = .bystander →
    s.line.observed = some b → s.fe.frame.position ≠ .none → s.line.heldFrame = [] →
    let withdrawn : State := { s with
      line.sense.offer := false
      hs.silence := s.hs.silence.map (fun _ => 0) }
    (b.last = false → NextIs .offerReleaseSensed s withdrawn) ∧
    (b.last = true → NextIs .offerReleaseSensed s { withdrawn with
      line.guard := some 0
      hs.window := some 0 })) ∧
  ∀ (b : BusByte) (s : State), OnBus s → s.hs.role = .none → s.arb.phase ≠ .standby →
    s.line.observed = some b → s.fe.frame.position ≠ .none → s.line.heldFrame = [] →
    let withdrawn : State := { s with
      line.sense.offer := false
      hs.silence := s.hs.silence.map (fun _ => 0) }
    (b.last = false → NextIs .offerReleaseSensed s withdrawn) ∧
    (b.last = true → NextIs .offerReleaseSensed s { frameAbandoned withdrawn with
      line.guard := some 0
      hs.window := none
      fe.frame := FrameState.absent })

/-- The talker's byte, step by step: with WAIT released and PEND asserted the frame engine supplies the next byte, which is driven for its set-up, and hands its event (the model's reading of the moment, log 36): the final byte of an OPEN asserts TRG and makes the view PROVISIONAL as OPENER (for a CANCEL's bytes see the statement of the CANCEL). Then OFFER is asserted and the stall timer starts again; with PEND released OFFER is released, and the next byte is awaited, or after a LAST byte the talker is in CLOSING with its window at zero, and the guard at zero (the model's choice of the moment, and that the talker senses the release of its own OFFER there, log 23). All this while the stall timer of the wait has not expired (in the model: it runs, log 19). -/
def Obligations.TalkerOffersAndWithdraws : Prop :=
  ∀ (b : BusByte) (s : State), OnBus s → currentByte s = some b → s.hs.stall ≠ none →
    (∀ f e, s.hs.role = .talker .awaitReady → s.hs.setUp = none →
      parseByte s.ctl.number s.ctl.subscriptions b s.fe.frame = (f, e) →
      let supplied : State := { s with
        line.sense.wait := false
        line.sense.pend := true
        line.drive.data := b.data
        line.drive.kind := b.kind
        line.drive.last := b.last
        hs.setUp := some 0
        fe.frame := f }
      ((∀ address, e ≠ .cancelHeader address) → (∀ address tag, e ≠ .cancelFinal address tag) →
        (∀ address source tag deadline, e ≠ .openFinal address source tag deadline) →
        NextIs .talkerReadySensed s supplied) ∧
      (∀ address source tag deadline, e = .openFinal address source tag deadline →
        NextIs .talkerReadySensed s { supplied with
          line.drive.trg := true
          rdv.view := { View.absent with
            state := .provisional, role := some .opener, tag := some tag,
            group := some address, deadline := some deadline } })) ∧
    (s.hs.role = .talker .awaitReady → s.hs.setUp ≠ none →
      NextIs .offerAssert s { s with
        line.drive.offer := true
        hs.role := .talker .offered
        hs.setUp := none
        hs.stall := some 0
        fe.comparator := some b }) ∧
    (s.hs.role = .talker .offered → b.last = false →
      NextIs .pendReleaseSensed s { s with
        line.sense.pend := false
        line.sense.offer := false
        line.drive.offer := false
        hs.role := .talker .awaitReady
        hs.stall := some 0
        fe.comparator := none
        fe.sentBytes := s.fe.sentBytes + 1 }) ∧
    (s.hs.role = .talker .offered → b.last = true →
      NextIs .pendReleaseSensed s { s with
        line.sense.pend := false
        line.sense.offer := false
        line.drive.offer := false
        line.guard := some 0
        hs.role := .talker .closing
        hs.stall := none
        hs.window := some 0
        fe.comparator := none })

/-- NO_LISTENER at a talker that finds no participant: the lines of the byte are released, PEND is asserted, OWN is released, the arbiter is in OUTSIDE. A descriptor is DONE with NO_LISTENER and gives its blocks back; a HELLO has joined the station; an OPEN leaves a NOT_OPENED record with reason NO_MEMBERS, and a PROVISIONAL view releases TRG and is NONE; a CANCEL closes the view of its tag CANCELLED, with cancel-sent-here set and TRG released; a slot frame with its removal request set leaves the slot and nothing further follows. That an outcome handed before, which these clauses leave out, ends the attempt in this action is the model's choice (log 35); that the stall timer runs until it expires is its reading (log 19). -/
def Obligations.NoListenerEndsTheAttempt : Prop :=
  ∀ s : State, OnBus s → s.hs.role = .talker .awaitReady → s.hs.stall ≠ none →
    s.tm.handed = none → s.rm.state = .idle →
    let rested : State := { s with
      line.sense.wait := false
      line.sense.pend := false
      line.drive.own := false
      line.drive.pend := true
      line.drive.wait := false
      line.drive.data := 0
      line.drive.kind := false
      line.drive.last := false
      hs.role := .participant .ready
      hs.stall := none
      hs.setUp := none
      hs.window := none
      hs.complete := false
      hs.silence := if s.line.sense.own || s.line.sense.req then some 0 else none
      fe.frame := FrameState.absent
      fe.comparator := none
      arb.phase := .outside
      arb.bid := none
      arb.settle := none
      arb.roundGap := none }
    let unopened (group tag : Byte) : OutcomeRecord :=
      { tag := tag, group := group, role := .opener, outcome := .notOpened,
        reason := some .noMembers, expiredHere := false, cancelSentHere := false,
        openedAt := none, closedAt := s.ctl.clock }
    (s.fe.frame.type ≠ some typeOpen → s.fe.frame.type ≠ some typeCancel →
      (∀ i, inFlightFrame s = some (.descriptor i) →
        NextIs .noListener s { rested with
          tm.table := s.tm.table.set i
            { s.tm.table[i] with
              state := .done, outcome := some .noListener, completedAt := some s.ctl.clock,
              blocks := [] }
          tm.completion := s.tm.completion ++ [i]
          mem.pool := s.mem.pool ++ s.tm.table[i].blocks }) ∧
      (∀ f, s.tm.slot = some f → f.state = .inFlight →
        (f.removal = true → NextIs .noListener s { rested with tm.slot := none }) ∧
        (f.removal = false → f.kind = .hello → s.ctl.resetInProgress = false →
          NextIs .noListener s { rested with
            tm.slot := none
            ctl.state := .online
            ctl.joinPhase := none
            ctl.leaveRequested := false
            cause.station := true
            cause.reason := some .joined }) ∧
        (∀ group tag deadline, f.removal = false → f.kind = .openFrame group tag deadline →
          s.rdv.outcomes.length < 4 →
          NextIs .noListener s { rested with
            tm.slot := none
            rdv.outcomes := s.rdv.outcomes ++ [unopened group tag] }))) ∧
    (∀ f group tag deadline, s.tm.slot = some f → f.state = .inFlight → f.removal = false →
      f.kind = .openFrame group tag deadline → s.fe.frame.type = some typeOpen →
      s.rdv.outcomes.length < 4 →
      (s.rdv.view.state ≠ .provisional →
        NextIs .noListener s { rested with
          tm.slot := none
          rdv.noted := none
          rdv.outcomes := s.rdv.outcomes ++ [unopened group tag] }) ∧
      (s.rdv.view.state = .provisional → s.ctl.resetInProgress = false →
        NextIs .noListener s { rested with
          line.drive.trg := false
          tm.slot := none
          rdv.view := View.absent
          rdv.noted := none
          rdv.outcomes := s.rdv.outcomes ++ [unopened group tag] })) ∧
    (∀ f group tag role, s.tm.slot = some f → f.state = .inFlight → f.removal = false →
      f.kind = .cancelFrame group tag → s.fe.frame.type ≠ some typeOpen →
      s.rdv.view.state = .waiting ∨ s.rdv.view.state = .armed ∨ s.rdv.view.state = .cancelling →
      s.rdv.view.group = some group → s.rdv.view.tag = some tag →
      s.rdv.view.role = some role → s.ctl.resetInProgress = false →
      s.rdv.outcomes.length < 4 →
      NextIs .noListener s { rested with
        line.drive.trg := false
        tm.slot := none
        rdv.view := View.absent
        rdv.outcomes := s.rdv.outcomes ++
          [{ tag := tag, group := group, role := role, outcome := .cancelled, reason := none,
             expiredHere := s.rdv.view.expiredHere, cancelSentHere := true,
             openedAt := s.rdv.view.openedAt, closedAt := s.ctl.clock }] })

/-- COMPLETION_WINDOW_END at a talker in CLOSING: D0–D7, KIND and LAST are released and the frame has completed. A descriptor is DONE with SENT, stands at the tail of the completion list and gives its blocks back; a HELLO has joined the station; an OPEN leaves the slot and its opener's PROVISIONAL view is WAITING with opened-at at the completion and, for a nonzero deadline, its timer at zero; a CANCEL leaves the slot and its sender's view closes CANCELLED. OWN stays until OWN_HOLD_END, which releases it, asserts PEND and leaves OWNER for OUTSIDE. That an outcome handed before, which these clauses leave out, ends the attempt in this action is the model's choice (log 35). -/
def Obligations.TalkerCompletesAndReleasesOwn : Prop :=
  ∀ s : State, OnBus s → s.hs.role = .talker .closing →
    let completed : State := { s with
      line.drive.data := 0
      line.drive.kind := false
      line.drive.last := false
      hs.complete := true
      fe.frame := FrameState.absent
      fe.comparator := none }
    (s.hs.window ≠ none → s.hs.complete = false → s.tm.handed = none → s.rm.state = .idle →
      (∀ i, inFlightFrame s = some (.descriptor i) → s.fe.frame.type = some typeData →
        NextIs .completionWindowEnd s { completed with
          tm.table := s.tm.table.set i
            { s.tm.table[i] with
              state := .done, outcome := some .sent, completedAt := some s.ctl.clock,
              blocks := [] }
          tm.completion := s.tm.completion ++ [i]
          mem.pool := s.mem.pool ++ s.tm.table[i].blocks }) ∧
      (∀ f, s.tm.slot = some f → f.state = .inFlight → f.removal = false →
        (f.kind = .hello → s.fe.frame.type = some typeHello → s.ctl.resetInProgress = false →
          NextIs .completionWindowEnd s { completed with
            tm.slot := none
            ctl.state := .online
            ctl.joinPhase := none
            ctl.leaveRequested := false
            cause.station := true
            cause.reason := some .joined }) ∧
        (∀ group tag deadline n, f.kind = .openFrame group tag deadline →
          s.fe.frame.type = some typeOpen → s.fe.frame.verdict = some .good →
          s.fe.frame.payloadCount = some (n + 1) → s.rdv.view.state = .provisional →
          NextIs .completionWindowEnd s { completed with
            tm.slot := none
            rdv.noted := none
            rdv.view.state := .waiting
            rdv.view.openedAt := some s.ctl.clock
            rdv.view.freeze := false
            rdv.view.pendingArm := false
            rdv.view.expiredHere := false
            rdv.view.cancelSentHere := false
            rdv.view.timer := if s.rdv.view.deadline.getD 0 = 0 then none else some 0 }) ∧
        (∀ group tag role n, f.kind = .cancelFrame group tag →
          s.fe.frame.type = some typeCancel → s.fe.frame.verdict = some .good →
          s.fe.frame.payloadCount = some (n + 1) → s.rdv.view.state = .cancelling →
          s.rdv.view.group = some group → s.rdv.view.tag = some tag →
          s.rdv.view.role = some role → s.ctl.resetInProgress = false →
          s.rdv.outcomes.length < 4 →
          NextIs .completionWindowEnd s { completed with
            line.drive.trg := false
            tm.slot := none
            rdv.view := View.absent
            rdv.outcomes := s.rdv.outcomes ++
              [{ tag := tag, group := group, role := role, outcome := .cancelled,
                 reason := none, expiredHere := s.rdv.view.expiredHere,
                 cancelSentHere := s.rdv.view.cancelSentHere,
                 openedAt := s.rdv.view.openedAt, closedAt := s.ctl.clock }] }))) ∧
    (s.hs.complete = true →
      NextIs .ownHoldEnd s { s with
        line.drive.own := false
        line.drive.pend := true
        line.drive.wait := false
        hs.role := .participant .ready
        hs.stall := none
        hs.setUp := none
        hs.window := none
        hs.complete := false
        hs.silence := if s.line.sense.own || s.line.sense.req then some 0 else none
        fe.comparator := none
        arb.phase := .outside
        arb.bid := none
        arb.settle := none
        arb.roundGap := none })

/-- OWN_ASSERTION_SENSED begins a frame at a participating station: position ADDRESS, verdict GOOD, standing PARTICIPANT, everything else of the frame state absent, and the silence timer at zero, or stopped at a station in NONE; a bidder has lost, and its frame goes back to its queue, or out of the slot if its removal was requested; an arbiter in STANDBY enters OUTSIDE (the model's reading, log 14); a frame in progress goes on. OWN_RELEASE_SENSED before completion abandons the frame, in every role but the talker's and at every byte of it: a record under construction is discarded and its blocks join the pool, an OPEN makes no rendezvous, a CANCEL lifts its freeze, and no counter moves. A participant, in any phase, and a bystander are at rest in READY; a station in NONE stays there. With no frame in progress only the levels change. With REQ released too the silence timer stops. -/
def Obligations.OwnBeginsAndAbandonsTheFrame : Prop :=
  (∀ s : State, OnBus s →
    let begun (u : State) : State := { u with
      line.sense.own := true
      line.heldFrame := s.line.heldFrame.filter (· != .silence)
      hs.window := none
      hs.silence := if s.hs.role = .none then none else some 0
      fe.frame := { FrameState.absent with
        position := .address, standing := some .participant, verdict := some .good } }
    let outside (u : State) : State := { u with
      arb.phase := .outside, arb.bid := none, arb.settle := none, arb.roundGap := none }
    (participates s = true → frameInProgress s = false →
      (s.arb.phase = .outside → NextIs .ownAssertionSensed s (begun s)) ∧
      (s.arb.phase = .standby → NextIs .ownAssertionSensed s (begun (outside s))) ∧
      (s.arb.phase = .bidding →
        let lost : State := outside { s with line.drive.req := false, line.drive.data := 0 }
        (∀ i, selectedFrame s = some (.descriptor i) →
          NextIs .ownAssertionSensed s (begun { lost with
            tm.table := s.tm.table.set i { s.tm.table[i] with state := .queued }
            tm.urgent := if s.tm.table[i].cls = .urgent then i :: s.tm.urgent else s.tm.urgent
            tm.normal :=
              if s.tm.table[i].cls = .normal then i :: s.tm.normal else s.tm.normal })) ∧
        (∀ f, s.tm.slot = some f → f.state = .selected →
          NextIs .ownAssertionSensed s (begun { lost with
            tm.slot := if f.removal then none else some { f with state := .queued } })))) ∧
    (participates s = false ∨ frameInProgress s = true →
      NextIs .ownAssertionSensed s { s with line.sense.own := true })) ∧
  ∀ (req : Bool) (s : State), OnBus s →
    let released (u : State) : State := { u with
      line.sense.own := false
      line.sense.req := req
      line.heldFrame :=
        if req then s.line.heldFrame else s.line.heldFrame.filter (· != .silence)
      hs.silence := if req then s.hs.silence else none }
    (s.fe.frame.position = .none ∨ isTalker s = true →
      NextIs (.ownReleaseSensed req) s (released s)) ∧
    (s.fe.frame.position ≠ .none → s.arb.phase ≠ .standby →
      let finished : State := { frameAbandoned s with
        hs.window := none, fe.frame := FrameState.absent }
      (∀ p, s.hs.role = .participant p ∨ s.hs.role = .bystander →
        NextIs (.ownReleaseSensed req) s (released { finished with
          line.drive.pend := true
          line.drive.wait := false
          hs.role := .participant .ready })) ∧
      (s.hs.role = .none → NextIs (.ownReleaseSensed req) s (released finished)))

/-! ### Stall, silence and breaks -/

/-- The timers' expiry: at its stall limit, in a wait that goes on, the talker hands STALLED and begins a frame break; at the silence limit any other station begins a silence break; both pulses only with BRK released, no guard and no pulse of its own. A timer that an event taken first has started again, or a wait that it has ended, gives no break: below the limit, and in the set-up of a byte, nothing changes. That the stall timer stops where it expires and that a set-up ends its wait (log 19), and that the silence timer runs on (log 24), are the model's choices. -/
def Obligations.TimerExpiryBeginsAFrameBreak : Prop :=
  (∀ s : State, OnBus s → s.line.sense.brk = false → s.line.guard = none →
    s.line.framePulse = none →
    (∀ n, s.hs.stall = some n → s.ctl.configuration.stallLimit * 200 ≤ n → s.hs.setUp = none →
      s.hs.role = .talker .awaitReady ∨ s.hs.role = .talker .offered → s.tm.handed = none →
      NextIs .stallTimerExpiry s { s with
        tm.handed := some .stalled
        hs.stall := none
        line.framePulse := some 0
        line.drive.brk := true }) ∧
    (∀ n, s.hs.silence = some n → s.ctl.configuration.silenceLimit * 2000 ≤ n →
      NextIs .silenceTimerExpiry s { s with
        line.framePulse := some 0
        line.drive.brk := true })) ∧
  ∀ s : State, OnBus s →
    ((∀ n, s.hs.stall = some n → n < s.ctl.configuration.stallLimit * 200) ∨ s.hs.setUp ≠ none →
      NextIs .stallTimerExpiry s s) ∧
    ((∀ n, s.hs.silence = some n → n < s.ctl.configuration.silenceLimit * 2000) →
      NextIs .silenceTimerExpiry s s)

/-- How a break begins: a frame break is dropped while BRK is sensed, held by the guard, and not begun twice; a clear break is held by the guard and by the 300 ns after a TRG release, is not begun twice, and is begun into an asserted BRK. BREAK_GUARD_END, CLEAR_BREAK_DELAY_END and BREAK_PULSE_END: the timer stops; a break held back is begun, a clear break no sooner than both the guard and the 300 ns allow; BRK is driven until the later of the station's two pulses ends. -/
def Obligations.BreaksBeginAndEnd : Prop :=
  (∀ (r : FrameBreakReason) (s : State),
    (s.line.sense.brk = true → requestFrameBreak r s = s) ∧
    (s.line.sense.brk = false → s.line.guard ≠ none →
      requestFrameBreak r s = { s with line.heldFrame := r :: s.line.heldFrame }) ∧
    (s.line.sense.brk = false → s.line.guard = none → s.line.framePulse ≠ none →
      requestFrameBreak r s = s) ∧
    (s.line.sense.brk = false → s.line.guard = none → s.line.framePulse = none →
      requestFrameBreak r s = { s with line.framePulse := some 0, line.drive.brk := true }) ∧
    (s.line.trgDelay ≠ none →
      requestClearBreak s = { s with line.delayedClear := true }) ∧
    (s.line.trgDelay = none → s.line.guard ≠ none →
      requestClearBreak s = { s with line.heldClear := true }) ∧
    (s.line.trgDelay = none → s.line.guard = none → s.line.clearPulse ≠ none →
      requestClearBreak s = s) ∧
    (s.line.trgDelay = none → s.line.guard = none → s.line.clearPulse = none →
      requestClearBreak s = { s with line.clearPulse := some 0, line.drive.brk := true })) ∧
  ∀ s : State, OnBus s →
    (s.line.heldFrame = [] → s.line.heldClear = false →
      NextIs .breakGuardEnd s { s with line.guard := none }) ∧
    (∀ r rest, s.line.heldFrame = r :: rest → s.line.heldClear = false →
      s.line.sense.brk = false → s.line.framePulse = none →
      NextIs .breakGuardEnd s { s with
        line.guard := none
        line.heldFrame := []
        line.framePulse := some 0
        line.drive.brk := true }) ∧
    (s.line.heldFrame = [] → s.line.heldClear = true → s.line.trgDelay = none →
      s.line.clearPulse = none →
      NextIs .breakGuardEnd s { s with
        line.guard := none
        line.heldClear := false
        line.clearPulse := some 0
        line.drive.brk := true }) ∧
    (s.line.heldFrame = [] → s.line.heldClear = true → s.line.trgDelay ≠ none →
      NextIs .breakGuardEnd s { s with
        line.guard := none
        line.heldClear := false
        line.delayedClear := true }) ∧
    (s.line.delayedClear = false →
      NextIs .clearBreakDelayEnd s { s with line.trgDelay := none }) ∧
    (s.line.delayedClear = true → s.line.guard = none → s.line.clearPulse = none →
      NextIs .clearBreakDelayEnd s { s with
        line.trgDelay := none
        line.delayedClear := false
        line.clearPulse := some 0
        line.drive.brk := true }) ∧
    (s.line.delayedClear = true → s.line.guard ≠ none →
      NextIs .clearBreakDelayEnd s { s with
        line.trgDelay := none
        line.delayedClear := false
        line.heldClear := true }) ∧
    NextIs (.breakPulseEnd .frame) s { s with
      line.framePulse := none
      line.drive.brk := s.line.clearPulse.isSome } ∧
    NextIs (.breakPulseEnd .clear) s { s with
      line.clearPulse := none
      line.drive.brk := s.line.framePulse.isSome }

/-- BREAK_EDGE: the measurement of the assertion begins, a fire that waits is held, and every station acts by its role. A participant or bystander releases WAIT and PEND and holds the role NONE, and its frame in progress is abandoned, at whatever byte: a record under construction is discarded and its blocks join the pool; a PROVISIONAL view releases TRG and is NONE, and an OPEN only noted is dropped; a CANCEL's freeze is lifted, a CANCELLING view returns to WAITING or ARMED by its TRG drive, and a pending-arm is applied. An arbiter in STANDBY enters OUTSIDE; a bidder releases REQ and its bid, and its frame goes back to its queue, or out of the slot if its removal was requested. A station in NONE changes no role. A talker releases every line of its frame, and unless the frame was complete it is abandoned in the same way and its attempt ends with the outcome handed, else BROKEN. A descriptor with attempts left is QUEUED at the head of its class, without it is DONE. A HELLO is tried again, or leaves the slot with an entry into FAULTED awaited: DUPLICATE if it was broken with its SOURCE on offer, NO_JOIN with no attempts left. An OPEN is tried again, or leaves NOT_OPENED with reason ATTEMPTS. A CANCEL is tried again, or leaves the slot with a clear break begun, or held back by the guard where a LAST byte was on offer. That the talker senses the release of its own OFFER there, and that the guard of a LAST byte starts with it, is the model's reading (log 23). -/
def Obligations.BreakEdgeStopsEveryRole : Prop :=
  ∀ s : State, OnBus s → s.line.sense.brk = false →
    let felt : State := { s with
      line.sense.brk := true
      line.measure := .timing 0
      line.heldFrame := []
      rdv.view.fire := (match s.rdv.view.fire with
        | .pending at' _ => .held at' | .held at' => .held at' | .clear => .clear) }
    let outside (t : State) : State := { t with
      arb.phase := .outside, arb.bid := none, arb.settle := none, arb.roundGap := none }
    let stopped (t : State) : State := { t with
      line.drive.wait := false
      line.drive.pend := false
      hs.role := .none
      hs.rejoin := true
      hs.silence := none
      hs.window := none
      fe.frame := FrameState.absent }
    let guarded : Option Nat :=
      if s.hs.role = .talker .offered ∧ s.fe.comparator.any (·.last) then some 0
      else s.line.guard
    let silenced (t : State) : State := outside { t with
      line.guard := guarded
      line.drive.offer := false
      line.drive.own := false
      line.drive.data := 0
      line.drive.kind := false
      line.drive.last := false
      line.sense.offer := false
      hs.role := .none
      hs.stall := none
      hs.setUp := none
      hs.window := none
      hs.complete := false
      hs.rejoin := true
      fe.comparator := none }
    let abandoned : State := frameAbandoned felt
    let broken : State := { silenced abandoned with
      fe.frame := FrameState.absent, tm.handed := none }
    (s.hs.role = .none → s.arb.phase = .off ∨ s.arb.phase = .outside →
      NextIs .breakEdge s felt) ∧
    (∀ p, s.hs.role = .participant p ∨ s.hs.role = .bystander →
      (s.fe.frame.position ≠ .none →
        (s.arb.phase = .outside → NextIs .breakEdge s (stopped abandoned)) ∧
        (s.arb.phase = .standby → NextIs .breakEdge s (outside (stopped abandoned)))) ∧
      (s.fe.frame.position = .none →
        (s.arb.phase = .outside → NextIs .breakEdge s (stopped felt)) ∧
        (s.arb.phase = .standby → NextIs .breakEdge s (outside (stopped felt))) ∧
        (s.arb.phase = .bidding ∨ s.arb.phase = .won →
          (∀ i, selectedFrame s = some (.descriptor i) →
            NextIs .breakEdge s { outside (stopped felt) with
              line.drive.req := false
              line.drive.data := 0
              tm.table := s.tm.table.set i { s.tm.table[i] with state := .queued }
              tm.urgent := if s.tm.table[i].cls = .urgent then i :: s.tm.urgent else s.tm.urgent
              tm.normal :=
                if s.tm.table[i].cls = .normal then i :: s.tm.normal else s.tm.normal }) ∧
          (∀ f, s.tm.slot = some f → f.state = .selected →
            NextIs .breakEdge s { outside (stopped felt) with
              line.drive.req := false
              line.drive.data := 0
              tm.slot := if f.removal then none else some { f with state := .queued } })))) ∧
    (∀ p, s.hs.role = .talker p → s.arb.phase = .owner →
      (s.hs.complete = true → NextIs .breakEdge s (silenced felt)) ∧
      (s.hs.complete = false →
        (∀ i, inFlightFrame s = some (.descriptor i) →
          (s.tm.handed = none ∨ s.tm.handed = some .stalled →
            s.tm.table[i].attempts ≤ s.ctl.configuration.retryLimit →
            NextIs .breakEdge s { broken with
              tm.table := s.tm.table.set i { s.tm.table[i] with state := .queued }
              tm.urgent :=
                if s.tm.table[i].cls = .urgent then i :: s.tm.urgent else s.tm.urgent
              tm.normal :=
                if s.tm.table[i].cls = .normal then i :: s.tm.normal else s.tm.normal }) ∧
          (∀ o, (o = .broken ∧ s.tm.handed = none) ∨ s.tm.handed = some o →
            o = .clash ∨ (o = .stalled ∨ o = .broken) ∧
              s.ctl.configuration.retryLimit < s.tm.table[i].attempts →
            NextIs .breakEdge s { broken with
              tm.table := s.tm.table.set i
                { s.tm.table[i] with
                  state := .done, outcome := some o, completedAt := some s.ctl.clock,
                  blocks := [] }
              tm.completion := s.tm.completion ++ [i]
              mem.pool := abandoned.mem.pool ++ s.tm.table[i].blocks })) ∧
        (∀ f, s.tm.slot = some f → f.state = .inFlight →
          (f.removal = true ∨
              (s.tm.handed = some .clash ∧
                ∀ group tag deadline, f.kind ≠ .openFrame group tag deadline) →
            NextIs .breakEdge s { broken with tm.slot := none }) ∧
          (f.removal = false → f.kind = .hello → s.ctl.resetInProgress = false →
            (p = .offered → s.fe.sentBytes = 1 → s.tm.handed = none →
              NextIs .breakEdge s { broken with
                tm.slot := none, ctl.pendingFault := some .duplicate }) ∧
            ((s.tm.handed = none ∧ (p ≠ .offered ∨ s.fe.sentBytes ≠ 1)) ∨
                s.tm.handed = some .stalled →
              (f.attempts ≤ s.ctl.configuration.retryLimit →
                NextIs .breakEdge s { broken with
                  tm.slot := some { f with state := .queued } }) ∧
              (s.ctl.configuration.retryLimit < f.attempts →
                NextIs .breakEdge s { broken with
                  tm.slot := none, ctl.pendingFault := some .noJoin }))) ∧
          (∀ group tag deadline, f.removal = false → f.kind = .openFrame group tag deadline →
            (s.tm.handed = none ∨ s.tm.handed = some .stalled →
              f.attempts ≤ s.ctl.configuration.retryLimit →
              NextIs .breakEdge s { broken with
                tm.slot := some { f with state := .queued } }) ∧
            (s.tm.handed = some .clash ∨
                ((s.tm.handed = none ∨ s.tm.handed = some .stalled) ∧
                  s.ctl.configuration.retryLimit < f.attempts) →
              s.rdv.outcomes.length < 4 →
              NextIs .breakEdge s { broken with
                tm.slot := none
                rdv.outcomes := s.rdv.outcomes ++
                  [{ tag := tag, group := group, role := .opener, outcome := .notOpened,
                     reason := some .attempts, expiredHere := false, cancelSentHere := false,
                     openedAt := none, closedAt := s.ctl.clock }] })) ∧
          (∀ group tag, f.removal = false → f.kind = .cancelFrame group tag →
            s.tm.handed = none ∨ s.tm.handed = some .stalled →
            (f.attempts ≤ s.ctl.configuration.retryLimit →
              NextIs .breakEdge s { broken with
                tm.slot := some { f with state := .queued } }) ∧
            (s.ctl.configuration.retryLimit < f.attempts → s.line.trgDelay = none →
              (guarded = none → s.line.clearPulse = none →
                NextIs .breakEdge s { broken with
                  tm.slot := none
                  line.clearPulse := some 0
                  line.drive.brk := true }) ∧
              (guarded ≠ none →
                NextIs .breakEdge s { broken with
                  tm.slot := none
                  line.heldClear := true }))))))

/-- CLEAR_BREAK_CLASSIFICATION: the assertion is counted and sets BUS once; a WAITING or ARMED view keeps its TRG drive and sets closing, with its deadline timer and any fire dropped, and a CANCEL for its tag is purged from the slot: a QUEUED one leaves it, a SELECTED or IN_FLIGHT one has its removal requested; an OBSERVING view is NONE. -/
def Obligations.ClearBreakMarksTheView : Prop :=
  ∀ (n : Nat) (s : State), OnBus s → s.line.measure = .timing n →
    (∀ tag, s.rdv.view.state = .waiting ∨ s.rdv.view.state = .armed →
      s.rdv.view.tag = some tag →
      NextIs .clearBreakClassification s { s with
        line.measure := .clear
        rdv.view.closing := true
        rdv.view.fire := .clear
        rdv.view.timer := none
        tm.slot := purgedSlot tag s.tm.slot
        cause.bus := true
        cause.counters.clearBreaks := countUp s.cause.counters.clearBreaks }) ∧
    (s.rdv.view.state = .observing →
      NextIs .clearBreakClassification s { s with
        line.measure := .clear
        rdv.view := View.absent
        cause.bus := true
        cause.counters.clearBreaks := countUp s.cause.counters.clearBreaks }) ∧
    (s.rdv.view.state = .none →
      NextIs .clearBreakClassification s { s with
        line.measure := .clear
        cause.bus := true
        cause.counters.clearBreaks := countUp s.cause.counters.clearBreaks })

/-- BRK_RELEASE: an assertion not yet classified is a frame break, counted once, and sets BUS; one already classified a clear break is not counted again. A station that was participating returns to rest, and with OWN and REQ sensed released its arbiter enters STANDBY and asks (D0–D7 sensed released there: the model's reading, log 11). A view with closing set closes BROKEN; a fire held across a frame break is carried out, FIRED with the sensed time of the TRG release; either close purges a CANCEL for the view's tag from the slot. A station whose entry into FAULTED waited for the release enters it, and a rendezvous it held is written BROKEN. One in soft reset, no clear break of its own still held back, makes the clearing; while one is held back it goes on. -/
def Obligations.BreakReleaseReturnsOrLeaves : Prop :=
  ∀ (own req clear : Bool) (n : Nat) (s : State), OnBus s → s.line.sense.brk = true →
    s.line.measure = (if clear then .clear else .timing n) →
    let counted : State := { s with
      line.sense.brk := false
      line.sense.own := own
      line.sense.req := req
      line.measure := .idle
      cause.bus := s.cause.bus || !clear
      cause.counters.frameBreaks :=
        if clear then s.cause.counters.frameBreaks
        else countUp s.cause.counters.frameBreaks }
    let rested : State := { counted with
      line.drive.pend := true
      line.drive.wait := false
      hs.role := .participant .ready
      hs.rejoin := false
      hs.silence := if own || req then some 0 else none }
    let closed (group tag : Byte) (role : RdvRole) (o : RdvOutcome) (closedAt : ClockTime) :
        OutcomeRecord :=
      { tag := tag, group := group, role := role, outcome := o, reason := none,
        expiredHere := s.rdv.view.expiredHere, cancelSentHere := s.rdv.view.cancelSentHere,
        openedAt := s.rdv.view.openedAt, closedAt := closedAt }
    (s.ctl.pendingFault = none → s.ctl.resetInProgress = false → s.hs.rejoin = true →
      s.arb.phase = .outside →
      (s.rdv.view.closing = false → s.rdv.view.fire = .clear →
        (own = true ∨ req = true → NextIs (.brkRelease own req) s rested) ∧
        (own = false → req = false →
          NextIs (.brkRelease own req) s (askArbiter { rested with
            line.sense.data := 0
            arb.phase := .standby
            arb.bid := none
            arb.settle := none
            arb.roundGap := some 0 }))) ∧
      (∀ group tag role, own = true ∨ req = true → s.rdv.view.group = some group →
        s.rdv.view.tag = some tag → s.rdv.view.role = some role →
        s.rdv.outcomes.length < 4 →
        (s.rdv.view.closing = true →
          NextIs (.brkRelease own req) s { rested with
            line.drive.trg := false
            rdv.view := View.absent
            tm.slot := purgedSlot tag s.tm.slot
            rdv.outcomes := s.rdv.outcomes ++ [closed group tag role .broken s.ctl.clock] }) ∧
        (∀ at', s.rdv.view.closing = false → s.rdv.view.fire = .held at' →
          NextIs (.brkRelease own req) s { rested with
            line.drive.trg := false
            rdv.firePulse := some 0
            rdv.view := View.absent
            tm.slot := purgedSlot tag s.tm.slot
            rdv.outcomes := s.rdv.outcomes ++ [closed group tag role .fired at'] }))) ∧
    (∀ reason, s.ctl.pendingFault = some reason → s.ctl.resetInProgress = false →
      s.rm.state = .idle → selectedFrame s = none →
      (∀ f group tag deadline, s.tm.slot = some f → f.kind ≠ .openFrame group tag deadline) →
      s.rdv.view.fire = .clear →
      ∃ t, exec (.brkRelease own req) s = .next t ∧ LeftTheBus s t .faulted reason ∧
        t.cause.bus = (s.cause.bus || !clear) ∧
        t.cause.counters.frameBreaks =
          (if clear then s.cause.counters.frameBreaks
           else countUp s.cause.counters.frameBreaks) ∧
        t.port = s.port ∧
        (s.rdv.view = View.absent → t.rdv.outcomes = s.rdv.outcomes) ∧
        (∀ group tag role,
          s.rdv.view.state = .waiting ∨ s.rdv.view.state = .armed ∨
            s.rdv.view.state = .cancelling →
          s.rdv.view.group = some group → s.rdv.view.tag = some tag →
          s.rdv.view.role = some role → s.rdv.outcomes.length < 4 →
          t.rdv.outcomes =
            s.rdv.outcomes ++ [closed group tag role .broken s.ctl.clock])) ∧
    (s.ctl.resetInProgress = true → clearBreakHeld s = false →
      ∃ t, exec (.brkRelease own req) s = .next t ∧ t.ctl.state = .offline ∧
        t.ctl.resetInProgress = false ∧ t.ctl.joinPhase = none ∧
        t.ctl.leaveRequested = false ∧ t.ctl.pendingFault = none ∧
        t.port = HostPort.idle ∧ t.cause.station = true ∧ t.cause.reason = some .reset ∧
        t.cause.port = false ∧ t.cause.bus = false ∧ t.cause.counters = Counters.zero ∧
        t.cause.mask = s.cause.mask ∧ t.tm = TransmitManager.cleared ∧
        t.rm = ReceiveManager.cleared ∧ t.rdv = RendezvousUnit.cleared ∧
        t.line = LineInterface.quiet ∧ t.hs = Handshake.idle ∧ t.arb = Arbiter.off ∧
        t.fe = FrameEngine.idle ∧ t.mem.cells = s.mem.cells ∧
        t.mem.pool =
          s.mem.pool ++ descriptorBlocks s ++ recordBlocks s ++ constructionBlocks s ∧
        t.ctl.configuration = s.ctl.configuration ∧
        t.ctl.subscriptions = s.ctl.subscriptions ∧ t.ctl.number = s.ctl.number ∧
        t.ctl.clock = s.ctl.clock) ∧
    (s.ctl.resetInProgress = true → clearBreakHeld s = true →
      ∃ t, exec (.brkRelease own req) s = .next t ∧ t.ctl = s.ctl ∧ t.port = s.port ∧
        t.line.sense.brk = false ∧ t.line.measure = .idle)

/-- READBACK_COMPARE in OFFERED: a byte equal to the driven one changes nothing but what is sensed; a difference on any of the ten lines sets the verdict MALFORMED, hands CLASH, marks the entry into FAULTED and begins a frame break. -/
def Obligations.ReadbackFindsAClash : Prop :=
  ∀ (b driven : BusByte) (s : State), OnBus s → s.hs.role = .talker .offered →
    s.fe.comparator = some driven → s.ctl.resetInProgress = false →
    let compared : State := { s with
      line.observed := if s.line.sense.offer then s.line.observed else some b
      line.sense.offer := true
      line.sense.data := b.data
      line.sense.kind := b.kind
      line.sense.last := b.last }
    (b = driven → NextIs (.readbackCompare b) s compared) ∧
    (b ≠ driven → s.tm.handed = none → s.line.sense.brk = false → s.line.guard = none →
      s.line.framePulse = none →
      NextIs (.readbackCompare b) s { compared with
        fe.frame.verdict := some .malformed
        tm.handed := some .clash
        ctl.pendingFault := some .clash
        line.framePulse := some 0
        line.drive.brk := true })

/-! ### Frames -/

/-- A DATA frame as a talker builds it, compressed or not, is heard whole: the verdict is GOOD, the header is the one built, the expanded length is the stored length, and the copies handed on are the stored payload, byte for byte. -/
def Obligations.BuiltDataFrameIsHeardWhole : Prop :=
  ∀ (number : StationNumber) (subscriptions : Vector (Option Policy) 16)
    (address source : Byte) (compress : Bool) (payload : List Byte),
    isDefinedAddress address = true → isStationAddress source = true → payload.length ≤ 1024 →
    ∃ f events, hear number subscriptions
        (buildFrame address source typeData (codePayload compress payload))
        (FrameState.started .participant) = (f, events) ∧
      f.verdict = some .good ∧ f.address = some address ∧ f.source = some source ∧
      f.type = some typeData ∧ f.addressed = some (addressReaches number subscriptions address) ∧
      f.expandedLength = some payload.length ∧ expandedPayload events = payload

/-- The system frames as a talker builds them are heard well formed: an OPEN gives its final-byte event with its group, tag and deadline, a CANCEL its header and final-byte events, a HELLO no event. And each error byte, by its position: a header byte in error makes the verdict HEADER_ERROR with no address decided for the station and no event; in a GOOD frame the DATA, OPEN and CANCEL payload bytes of R44, R45 and R46 make it MALFORMED at that byte, with the malformed event and no other, and every other byte has its own event; after an error nothing changes any more; an OPEN or CANCEL without payload is malformed at its end. That a further byte behind a complete OPEN or CANCEL payload is an error follows from the one form that is well formed. -/
def Obligations.BuiltSystemFramesAreHeard : Prop :=
  (∀ (number : StationNumber) (subscriptions : Vector (Option Policy) 16)
    (group source tag : Byte) (deadline : Deadline),
    isRendezvousAddress group = true → isStationAddress source = true →
    (∃ f, hear number subscriptions
        (buildFrame group source typeOpen ((tag :: bytes16 deadline).map dataByte))
        (FrameState.started .participant) =
          (f, [.nothing, .nothing, .nothing, .nothing, .nothing,
            .openFinal group source tag deadline]) ∧
      endVerdict f = some .good) ∧
    (∃ f, hear number subscriptions (buildFrame group source typeCancel [dataByte tag])
        (FrameState.started .participant) =
          (f, [.nothing, .nothing, .cancelHeader group, .cancelFinal group tag]) ∧
      endVerdict f = some .good) ∧
    (∃ f, hear number subscriptions (buildFrame source source typeHello [])
        (FrameState.started .participant) = (f, [.nothing, .nothing, .nothing]) ∧
      endVerdict f = some .good)) ∧
  ∀ (number : StationNumber) (subscriptions : Vector (Option Policy) 16)
    (b : BusByte) (f : FrameState),
    let parsed : FrameState × FrameEvent := parseByte number subscriptions b f
    let spoiled : FrameState := { f with
      position := .payload, verdict := some .malformed, runCount := none }
    (f.position = .address → parsed =
      ({ f with
        position := .source
        address := some b.data
        verdict :=
          if (b.data ≤ 0x1F ∨ 0x40 ≤ b.data ∧ b.data ≤ 0x4F ∨ b.data = 0x7F) ∧
              b.kind = true ∧ b.last = false
          then f.verdict else some .headerError }, .nothing)) ∧
    (f.position = .source → parsed =
      ({ f with
        position := .type
        source := some b.data
        verdict :=
          if b.data ≤ 0x1F ∧ b.kind = true ∧ b.last = false
          then f.verdict else some .headerError }, .nothing)) ∧
    (∀ a c, f.position = .type → f.type = none → f.address = some a → f.source = some c →
      let wrong : Prop :=
        b.kind = false ∨ b.data = 0x00 ∨ 0x04 < b.data ∨
          (b.data = 0x02 ∨ b.data = 0x03) ∧ a ≤ 0x1F ∨
          b.data = 0x04 ∧ (a ≠ c ∨ b.last = false)
      parsed.1.type = some b.data ∧
      parsed.1.position = (if b.last then .type else .payload) ∧
      (wrong ∨ f.verdict = some .headerError →
        parsed.1.verdict = some .headerError ∧ parsed.2 = .nothing ∧
          parsed.1.addressed = if f.standing = some .talker then none else some false) ∧
      (¬ wrong → f.verdict = some .good →
        parsed.1.verdict = some .good ∧
          parsed.2 = if b.data = 0x03 then .cancelHeader a else .nothing)) ∧
    (∀ n, f.verdict = some .good → f.type = some typeData → f.expandedLength = some n →
      (f.position = .payload →
        (b.kind = true → 0x80 ≤ b.data → b.data ≤ 0xBF → b.last = false →
          parsed = ({ f with
            position := .afterMarker, runCount := some (b.data.toNat - 0x80 + 3) }, .nothing)) ∧
        (b.kind = true → b.data < 0x80 ∨ 0xBF < b.data ∨ b.last = true →
          parsed = (spoiled, .malformed)) ∧
        (b.kind = false → n + 1 ≤ 1024 →
          parsed = ({ f with
            position := .payload, runCount := none, expandedLength := some (n + 1) },
            .copies b.data 1 b.last)) ∧
        (b.kind = false → 1024 < n + 1 → parsed = (spoiled, .malformed))) ∧
      (∀ k, f.position = .afterMarker → f.runCount = some k →
        (b.kind = true → parsed = (spoiled, .malformed)) ∧
        (b.kind = false → n + k ≤ 1024 →
          parsed = ({ f with
            position := .payload, runCount := none, expandedLength := some (n + k) },
            .copies b.data k b.last)) ∧
        (b.kind = false → 1024 < n + k → parsed = (spoiled, .malformed)))) ∧
    (f.position = .payload → f.verdict = some .good → f.type = some typeOpen →
      (b.kind = true → parsed = (spoiled, .malformed)) ∧
      (b.kind = false → f.payloadCount = some 0 →
        (b.last = false → parsed =
          ({ f with payloadCount := some 1, tag := some b.data }, .nothing)) ∧
        (b.last = true → parsed =
          ({ spoiled with payloadCount := some 1, tag := some b.data }, .malformed))) ∧
      (b.kind = false → f.payloadCount = some 1 →
        (b.last = false → parsed =
          ({ f with payloadCount := some 2, deadlineHigh := some b.data }, .nothing)) ∧
        (b.last = true → parsed =
          ({ spoiled with payloadCount := some 2, deadlineHigh := some b.data }, .malformed))) ∧
      (b.kind = false → f.payloadCount = some 2 →
        (∀ a c t h, b.last = true → f.address = some a → f.source = some c →
          f.tag = some t → f.deadlineHigh = some h → parsed =
            ({ f with payloadCount := some 3, deadlineLow := some b.data },
              .openFinal a c t (h ++ b.data))) ∧
        (b.last = false → parsed =
          ({ spoiled with payloadCount := some 3, deadlineLow := some b.data }, .malformed))) ∧
      (b.kind = false → f.payloadCount = some 3 → parsed = (spoiled, .malformed))) ∧
    (f.position = .payload → f.verdict = some .good → f.type = some typeCancel →
      (b.kind = true → parsed = (spoiled, .malformed)) ∧
      (b.kind = false → f.payloadCount = some 0 →
        (∀ a, b.last = true → f.address = some a → parsed =
          ({ f with payloadCount := some 1, tag := some b.data }, .cancelFinal a b.data)) ∧
        (b.last = false → parsed =
          ({ spoiled with payloadCount := some 1, tag := some b.data }, .malformed))) ∧
      (b.kind = false → f.payloadCount = some 1 → parsed = (spoiled, .malformed))) ∧
    (f.position = .payload ∨ f.position = .afterMarker → f.verdict ≠ some .good →
      parsed = (f, .nothing)) ∧
    (f.verdict = some .good → f.type = some typeOpen ∨ f.type = some typeCancel →
      f.payloadCount = some 0 → endVerdict f = some .malformed) ∧
    (f.verdict ≠ some .good ∨ f.payloadCount ≠ some 0 → endVerdict f = f.verdict)

/-! ### Reception -/

/-- TAKE of a plain data byte of a DATA payload in STORING, with room in the last block: the byte is stored at the next position, kept and full length rise by one, and no other byte of the packet memory changes. A copy that finds no room takes the block at the head of the pool; with the pool empty a STRICT record waits in BLOCK_WAIT with the copies not yet stored, and a LENIENT one, or a byte with LAST, becomes TRUNCATED. A byte at which the payload is malformed: a record under construction in STORING or TRUNCATED becomes MALFORMED with its lengths and blocks as they stand, a frame that is dropped stays so, and nothing is stored. -/
def Obligations.CopiesAreStored : Prop :=
  (∀ (v : Byte) (last : Bool) (n a : Nat) (c : Construction) (s : State), OnBus s →
    MemoryCanonical s → s.hs.role = .participant .ready → s.fe.frame.position = .payload →
    s.fe.frame.verdict = some .good → s.fe.frame.type = some typeData →
    s.fe.frame.addressed = some true → s.fe.frame.expandedLength = some n → n < 1024 →
    s.rm.state = .storing → s.rm.construction = some c →
    c.keptLength < 64 * c.blocks.length → payloadAddress c.blocks c.keptLength = some a →
    ∃ cells, Memory.read cells a = v ∧
      (∀ x, x ≠ a → Memory.read cells x = Memory.read s.mem.cells x) ∧
      NextIs (.take { data := v, kind := false, last := last }) s { s with
        line.sense.offer := true
        line.sense.data := v
        line.sense.kind := false
        line.sense.last := last
        line.observed := some { data := v, kind := false, last := last }
        line.heldFrame := s.line.heldFrame.filter (· != .silence)
        line.drive.wait := true
        line.drive.pend := false
        hs.role := .participant .taken
        hs.latch := some { byte := { data := v, kind := false, last := last }, position := .payload }
        hs.silence := s.hs.silence.map (fun _ => 0)
        fe.frame.expandedLength := some (n + 1)
        fe.frame.runCount := none
        mem.cells := cells
        rm.held := none
        rm.construction := some { c with
          keptLength := c.keptLength + 1, fullLength := c.fullLength + 1 } }) ∧
  (∀ (v : Byte) (last : Bool) (n : Nat) (c : Construction) (s : State),
    s.rm.construction = some c → c.keptLength = 64 * c.blocks.length →
    (∀ b rest, s.mem.pool = b :: rest →
      storeCopies v last 1 s = { s with
        mem.pool := rest
        mem.cells := Memory.write s.mem.cells (64 * b) v
        rm.state := .storing
        rm.held := none
        rm.construction := some { c with
          blocks := c.blocks ++ [b], keptLength := c.keptLength + 1 } }) ∧
    (s.mem.pool = [] →
      (s.rm.policy = some .strict → last = false →
        storeCopies v last (n + 1) s = { s with
          rm.state := .blockWait
          rm.held := some { value := v, count := n + 1 } }) ∧
      (s.rm.policy ≠ some .strict ∨ last = true →
        storeCopies v last (n + 1) s = { s with
          rm.state := .truncated
          rm.held := none
          rm.construction := some { c with status := .truncated } }))) ∧
  ∀ (b : BusByte) (f : FrameState) (s : State), OnBus s → s.hs.role = .participant .ready →
    s.fe.frame.position = .payload ∨ s.fe.frame.position = .afterMarker →
    parseByte s.ctl.number s.ctl.subscriptions b s.fe.frame = (f, .malformed) →
    s.fe.frame.type = some typeData → s.fe.frame.addressed = some true →
    let taken : State := { s with
      line.sense.offer := true
      line.sense.data := b.data
      line.sense.kind := b.kind
      line.sense.last := b.last
      line.observed := some b
      line.heldFrame := s.line.heldFrame.filter (· != .silence)
      line.drive.wait := true
      line.drive.pend := false
      hs.role := .participant .taken
      hs.latch := some { byte := b, position := s.fe.frame.position }
      hs.silence := s.hs.silence.map (fun _ => 0)
      fe.frame := f }
    (∀ c, s.rm.state = .storing ∨ s.rm.state = .truncated → s.rm.construction = some c →
      NextIs (.take b) s { taken with
        rm.state := .malformed
        rm.construction := some { c with status := .malformed } }) ∧
    (s.rm.state = .dropping → NextIs (.take b) s taken)

/-- COMPLETION_WINDOW_END of an addressed DATA frame at a participant: by the reception state a record joins the tail of the queue with the next sequence number, its status, lengths and completion time, or the frame is counted dropped; the participant is in READY. A frame for which no slot was asked makes an empty record only where header byte 3 carried LAST; that any other keeps nothing is the model's choice (log 42). The completion of a DATA frame not addressed to the station, or of a HELLO, keeps nothing of the frame: a bystander asserts PEND and is in READY, and so is a participant in PREPARING, as every listener to a frame without payload is, or it takes the byte already on offer, which belongs to no frame. -/
def Obligations.RecordJoinsAtCompletion : Prop :=
  (∀ (src adr : Byte) (full : Nat) (s : State), OnBus s → s.hs.window ≠ none →
    s.hs.role = .participant .preparing → s.line.sense.offer = false →
    s.fe.frame.position ≠ .none → s.fe.frame.type = some typeData →
    s.fe.frame.addressed = some true → s.fe.frame.expandedLength = some full →
    s.fe.frame.source = some src → s.fe.frame.address = some adr →
    let ended : State := { s with
      line.drive.wait := false
      hs.window := none
      hs.role := .participant .ready
      fe.frame := FrameState.absent
      rm.state := .idle
      rm.policy := none
      rm.construction := none
      rm.held := none }
    let joined (source address : Byte) (status : RecordStatus) (length kept : Nat)
        (blocks : List Nat) : State :=
      { ended with
        rm.sequence := s.rm.sequence + 1
        rm.records := s.rm.records ++
          [{ sequence := s.rm.sequence, source := source, address := address,
             type := typeData, status := status, fullLength := length, keptLength := kept,
             completedAt := s.ctl.clock, blocks := blocks, aged := false }] }
    (∀ c, s.rm.state = .storing → s.rm.construction = some c →
      NextIs .completionWindowEnd s (joined c.source c.address .complete full c.keptLength c.blocks)) ∧
    (∀ c, s.rm.state = .truncated → s.rm.construction = some c →
      NextIs .completionWindowEnd s
        { joined c.source c.address .truncated full c.keptLength c.blocks with
          cause.counters.recordsTruncated := countUp s.cause.counters.recordsTruncated }) ∧
    (∀ c, s.rm.state = .malformed → s.rm.construction = some c →
      NextIs .completionWindowEnd s
        { joined c.source c.address .malformed full 0 [] with
          mem.pool := s.mem.pool ++ c.blocks
          cause.counters.recordsMalformed := countUp s.cause.counters.recordsMalformed }) ∧
    (s.rm.state = .dropping →
      NextIs .completionWindowEnd s { ended with
        cause.counters.framesDropped := countUp s.cause.counters.framesDropped }) ∧
    (s.rm.state = .idle → s.rm.construction = none → s.rm.policy = none → s.rm.held = none →
      (s.fe.frame.position = .type → s.rm.records.length < 32 →
        NextIs .completionWindowEnd s (joined src adr .complete 0 0 [])) ∧
      (s.fe.frame.position = .type → 32 ≤ s.rm.records.length →
        NextIs .completionWindowEnd s { ended with
          cause.counters.framesDropped := countUp s.cause.counters.framesDropped }) ∧
      (s.fe.frame.position ≠ .type → NextIs .completionWindowEnd s ended))) ∧
  ∀ s : State, OnBus s → s.hs.window ≠ none →
    s.fe.frame.type ≠ some typeOpen → s.fe.frame.type ≠ some typeCancel →
    s.fe.frame.type ≠ some typeData ∨ s.fe.frame.addressed ≠ some true →
    let finished : State := { s with hs.window := none, fe.frame := FrameState.absent }
    (s.hs.role = .bystander →
      NextIs .completionWindowEnd s { finished with
        line.drive.pend := true
        line.drive.wait := false
        hs.role := .participant .ready }) ∧
    (s.hs.role = .participant .preparing → s.rm.state = .idle →
      (s.line.sense.offer = false →
        NextIs .completionWindowEnd s { finished with
          line.drive.wait := false
          hs.role := .participant .ready }) ∧
      (∀ b, s.line.sense.offer = true → s.line.observed = some b →
        NextIs .completionWindowEnd s { finished with
          line.drive.wait := true
          line.drive.pend := false
          hs.role := .participant .taken
          hs.latch := some { byte := b, position := .none } }))

/-- AGED_FLAG_SET: while the age limit is nonzero the record's flag is set, at the head or not, and nothing else of the queue changes; with the limit 0 no flag is set. That the record's age has come to the limit is what the command says and is not compared (the model's choice, log 2). -/
def Obligations.AgedFlagIsSet : Prop :=
  ∀ (place : Nat) (r : Record) (s : State), Running s →
    (s.ctl.configuration.ageLimit ≠ 0 → s.rm.records[place]? = some r →
      NextIs (.agedFlagSet place) s { s with
        rm.records := s.rm.records.set place { r with aged := true } }) ∧
    (s.ctl.configuration.ageLimit = 0 → NextIs (.agedFlagSet place) s s)

/-! ### Rendezvous -/

/-- TAKE of the final byte of a well-formed OPEN by an ONLINE station with its view in NONE: TRG is asserted and the view is PROVISIONAL as MEMBER with the frame's tag, group and deadline; any other station that takes it, and a bystander that observes it, notes the open and does not assert TRG. COMPLETION_WINDOW_END of a well-formed OPEN at a participant or bystander: a PROVISIONAL view is WAITING with opened-at at the completion, its flags clear and, for a nonzero deadline, its timer at zero; with the view in NONE a noted open makes it OBSERVING with its tag and group, the tag known; any other view stays, and the noted open is dropped. In each case an own OPEN that is QUEUED leaves the slot, with a record NOT_OPENED, LOST. The end of a malformed OPEN changes no view and no slot, and drops a noted open. That the station senses TRG asserted from that byte on is the model's reading (log 8). -/
def Obligations.OpenMakesAMember : Prop :=
  (∀ (adr src tag high low : Byte) (s : State), OnBus s → s.hs.role = .participant .ready →
    s.fe.frame.position = .payload → s.fe.frame.verdict = some .good →
    s.fe.frame.type = some typeOpen → s.fe.frame.payloadCount = some 2 →
    s.fe.frame.address = some adr → s.fe.frame.source = some src →
    s.fe.frame.tag = some tag → s.fe.frame.deadlineHigh = some high →
    let taken : State := { s with
      line.sense.offer := true
      line.sense.data := low
      line.sense.kind := false
      line.sense.last := true
      line.sense.trg := true
      line.observed := some { data := low, kind := false, last := true }
      line.heldFrame := s.line.heldFrame.filter (· != .silence)
      line.drive.wait := true
      line.drive.pend := false
      hs.role := .participant .taken
      hs.latch := some { byte := { data := low, kind := false, last := true }, position := .payload }
      hs.silence := s.hs.silence.map (fun _ => 0)
      fe.frame.payloadCount := some 3
      fe.frame.deadlineLow := some low }
    (s.ctl.state = .online → s.rdv.view.state = .none →
      NextIs (.take { data := low, kind := false, last := true }) s { taken with
        line.drive.trg := true
        rdv.view := { View.absent with
          state := .provisional, role := some .member, tag := some tag, group := some adr,
          deadline := some (high ++ low) } }) ∧
    (s.ctl.state ≠ .online ∨ s.rdv.view.state ≠ .none →
      NextIs (.take { data := low, kind := false, last := true }) s { taken with
        rdv.noted := some
          { address := adr, source := src, tag := tag, deadline := high ++ low } })) ∧
  (∀ (adr src tag high low : Byte) (s : State), OnBus s → s.hs.role = .bystander →
    s.fe.frame.position = .payload → s.fe.frame.verdict = some .good →
    s.fe.frame.type = some typeOpen → s.fe.frame.payloadCount = some 2 →
    s.fe.frame.address = some adr → s.fe.frame.source = some src →
    s.fe.frame.tag = some tag → s.fe.frame.deadlineHigh = some high →
    NextIs (.observe { data := low, kind := false, last := true }) s { s with
      line.sense.offer := true
      line.sense.data := low
      line.sense.kind := false
      line.sense.last := true
      line.sense.trg := true
      line.observed := some { data := low, kind := false, last := true }
      line.heldFrame := s.line.heldFrame.filter (· != .silence)
      hs.silence := s.hs.silence.map (fun _ => 0)
      fe.frame.payloadCount := some 3
      fe.frame.deadlineLow := some low
      rdv.noted := some
        { address := adr, source := src, tag := tag, deadline := high ++ low } }) ∧
  ∀ s : State, OnBus s → s.hs.window ≠ none →
    (s.hs.role = .participant .preparing ∧ s.line.sense.offer = false) ∨
      s.hs.role = .bystander →
    s.fe.frame.position ≠ .none → s.fe.frame.type = some typeOpen → s.rm.state = .idle →
    let ended : State := { s with
      line.drive.pend := s.line.drive.pend || s.hs.role == .bystander
      line.drive.wait := false
      hs.window := none
      hs.role := .participant .ready
      fe.frame := FrameState.absent
      rdv.noted := none }
    let opensAnd (t : State) : Prop :=
      ((∀ f group tag deadline, s.tm.slot = some f → f.state = .queued →
          f.kind ≠ .openFrame group tag deadline) →
        NextIs .completionWindowEnd s t) ∧
      (∀ f group tag deadline, s.tm.slot = some f → f.state = .queued →
        f.kind = .openFrame group tag deadline → s.rdv.outcomes.length < 4 →
        NextIs .completionWindowEnd s { t with
          tm.slot := none
          rdv.outcomes := s.rdv.outcomes ++
            [{ tag := tag, group := group, role := .opener, outcome := .notOpened,
               reason := some .lost, expiredHere := false, cancelSentHere := false,
               openedAt := none, closedAt := s.ctl.clock }] })
    (∀ n, s.fe.frame.verdict = some .good → s.fe.frame.payloadCount = some (n + 1) →
      (s.rdv.view.state = .provisional →
        opensAnd { ended with
          rdv.view.state := .waiting
          rdv.view.openedAt := some s.ctl.clock
          rdv.view.freeze := false
          rdv.view.pendingArm := false
          rdv.view.expiredHere := false
          rdv.view.cancelSentHere := false
          rdv.view.timer := if s.rdv.view.deadline.getD 0 = 0 then none else some 0 }) ∧
      (∀ noted, s.rdv.view.state = .none → s.rdv.noted = some noted →
        opensAnd { ended with
          rdv.view := { View.absent with
            state := .observing, tag := some noted.tag, group := some noted.address,
            tagKnown := true } }) ∧
      ((s.rdv.view.state = .none ∧ s.rdv.noted = none) ∨
          (s.rdv.view.state ≠ .none ∧ s.rdv.view.state ≠ .provisional) →
        opensAnd ended)) ∧
    (s.fe.frame.verdict ≠ some .good ∨ s.fe.frame.payloadCount = some 0 →
      NextIs .completionWindowEnd s ended)

/-- A CANCEL at a station whose view holds a rendezvous, byte by byte. Its header, taken by a participant, observed by a bystander or supplied by its talker, freezes a WAITING or ARMED view of its group. Its final byte puts a matching WAITING or ARMED view without a pending fire into CANCELLING with its TRG drive kept, at the talker with cancel-sent-here set (that the talker hands these where it supplies the byte is the model's reading, log 36). Its completion releases TRG, writes CANCELLED with the view's flags and the completion time, purges a CANCEL for its tag from the slot, and leaves the view in NONE. A CANCEL that ends without closing the view lifts the freeze: at the completion of a malformed one or of one that did not match, and at an abandonment, where a CANCELLING view returns to WAITING if it drives TRG and to ARMED if it does not; a pending-arm is then applied, and the automatic CANCEL of an expiry that came in CANCELLING is placed. A participant and a bystander complete it alike. At an OBSERVING view a well-formed CANCEL of its group and tag, or any while its tag is not known, closes the view to NONE without a record; one that does not match, a malformed one, and any at a view in NONE or PROVISIONAL changes no view. -/
def Obligations.CancelFreezesAndCloses : Prop :=
  (∀ (group tag : Byte) (role : RdvRole) (s : State), OnBus s →
    s.rdv.view.group = some group → s.rdv.view.tag = some tag → s.rdv.view.role = some role →
    let parsed (b : BusByte) : FrameState × FrameEvent :=
      parseByte s.ctl.number s.ctl.subscriptions b s.fe.frame
    let sampled (b : BusByte) (f : FrameState) : State := { s with
      line.sense.offer := true
      line.sense.data := b.data
      line.sense.kind := b.kind
      line.sense.last := b.last
      line.observed := some b
      line.heldFrame := s.line.heldFrame.filter (· != .silence)
      hs.silence := s.hs.silence.map (fun _ => 0)
      fe.frame := f }
    let taken (b : BusByte) (f : FrameState) : State := { sampled b f with
      line.drive.wait := true
      line.drive.pend := false
      hs.role := .participant .taken
      hs.latch := some { byte := b, position := s.fe.frame.position } }
    let supplied (b : BusByte) (f : FrameState) : State := { s with
      line.sense.wait := false
      line.sense.pend := true
      line.drive.data := b.data
      line.drive.kind := b.kind
      line.drive.last := b.last
      hs.setUp := some 0
      fe.frame := f }
    let ended : State := { s with
      line.drive.pend := s.line.drive.pend || s.hs.role == .bystander
      line.drive.wait := false
      hs.window := none
      hs.role := .participant .ready
      fe.frame := FrameState.absent }
    let abandoned : State := { s with
      line.sense.own := false
      line.sense.req := false
      line.drive.pend := true
      line.drive.wait := false
      line.heldFrame := s.line.heldFrame.filter (· != .silence)
      hs.role := .participant .ready
      hs.window := none
      hs.silence := none
      fe.frame := FrameState.absent }
    (s.rdv.view.state = .waiting ∨ s.rdv.view.state = .armed →
      cancelHeader group s = { s with rdv.view.freeze := true } ∧
      (∀ other, other ≠ group → cancelHeader other s = s) ∧
      (s.rdv.view.fire = .clear →
        cancelFinal false group tag s = { s with rdv.view.state := .cancelling } ∧
        cancelFinal true group tag s =
          { s with rdv.view.state := .cancelling, rdv.view.cancelSentHere := true }) ∧
      (s.rdv.view.fire ≠ .clear → cancelFinal false group tag s = s) ∧
      (∀ b f, parsed b = (f, .cancelHeader group) →
        (s.hs.role = .participant .ready → isDuplicateSource s.ctl.number b s.fe.frame = false →
          NextIs (.take b) s { taken b f with rdv.view.freeze := true }) ∧
        (s.hs.role = .bystander →
          NextIs (.observe b) s { sampled b f with rdv.view.freeze := true }) ∧
        (s.hs.role = .talker .awaitReady → s.hs.setUp = none → s.hs.stall ≠ none →
          currentByte s = some b →
          NextIs .talkerReadySensed s { supplied b f with rdv.view.freeze := true })) ∧
      (∀ b f, parsed b = (f, .cancelFinal group tag) → s.rdv.view.fire = .clear →
        (s.hs.role = .participant .ready → isDuplicateSource s.ctl.number b s.fe.frame = false →
          NextIs (.take b) s { taken b f with rdv.view.state := .cancelling }) ∧
        (s.hs.role = .bystander →
          NextIs (.observe b) s { sampled b f with rdv.view.state := .cancelling }) ∧
        (s.hs.role = .talker .awaitReady → s.hs.setUp = none → s.hs.stall ≠ none →
          currentByte s = some b →
          NextIs .talkerReadySensed s { supplied b f with
            rdv.view.state := .cancelling, rdv.view.cancelSentHere := true }))) ∧
    (s.fe.frame.verdict = some .good → s.fe.frame.address = some group →
      (s.fe.frame.position = .type → s.fe.frame.type = none → isRendezvousAddress group = true →
        (parsed { data := 0x03, kind := true, last := false }).2 = .cancelHeader group) ∧
      (s.fe.frame.position = .payload → s.fe.frame.type = some typeCancel →
        s.fe.frame.payloadCount = some 0 →
        parsed { data := tag, kind := false, last := true } =
          ({ s.fe.frame with payloadCount := some 1, tag := some tag },
            .cancelFinal group tag))) ∧
    (s.hs.window ≠ none →
      (s.hs.role = .participant .preparing ∧ s.line.sense.offer = false) ∨
        s.hs.role = .bystander →
      s.rm.state = .idle → s.fe.frame.position ≠ .none → s.fe.frame.type = some typeCancel →
      (s.rdv.view.state = .cancelling → s.fe.frame.verdict = some .good →
        s.fe.frame.payloadCount = some 1 →
        s.ctl.resetInProgress = false → s.rdv.outcomes.length < 4 →
        NextIs .completionWindowEnd s { ended with
          line.drive.trg := false
          rdv.view := View.absent
          tm.slot := purgedSlot tag s.tm.slot
          rdv.outcomes := s.rdv.outcomes ++
            [{ tag := tag, group := group, role := role, outcome := .cancelled, reason := none,
               expiredHere := s.rdv.view.expiredHere,
               cancelSentHere := s.rdv.view.cancelSentHere,
               openedAt := s.rdv.view.openedAt, closedAt := s.ctl.clock }] }) ∧
      (s.fe.frame.verdict ≠ some .good ∨ s.fe.frame.payloadCount = some 0 ∨
          s.fe.frame.payloadCount = some 1 →
        s.rdv.view.expiredCancelling = false →
        (s.rdv.view.state = .armed ∨
            (s.rdv.view.state = .waiting ∧ s.rdv.view.pendingArm = false) →
          NextIs .completionWindowEnd s { ended with rdv.view.freeze := false }) ∧
        (s.rdv.view.state = .waiting → s.rdv.view.pendingArm = true →
          s.ctl.resetInProgress = false →
          NextIs .completionWindowEnd s { ended with
            line.drive.trg := false
            rdv.view.state := .armed
            rdv.view.freeze := false
            rdv.view.pendingArm := false }))) ∧
    (∀ p, s.hs.role = .participant p → s.fe.frame.position ≠ .none → s.rm.state = .idle →
      s.fe.frame.type = some typeCancel → s.rdv.view.state = .cancelling →
      (s.line.drive.trg = true → s.rdv.view.pendingArm = false →
        s.rdv.view.expiredCancelling = false →
        NextIs (.ownReleaseSensed false) s { abandoned with
          rdv.view.state := .waiting
          rdv.view.freeze := false
          rdv.view.cancelSentHere := false }) ∧
      (s.line.drive.trg = false → s.rdv.view.expiredCancelling = false →
        NextIs (.ownReleaseSensed false) s { abandoned with
          rdv.view.state := .armed
          rdv.view.freeze := false
          rdv.view.cancelSentHere := false }) ∧
      (s.line.drive.trg = true → s.rdv.view.pendingArm = false →
        s.rdv.view.expiredCancelling = true → s.tm.slot = none → s.arb.phase = .outside →
        NextIs (.ownReleaseSensed false) s { abandoned with
          rdv.view.state := .waiting
          rdv.view.freeze := false
          rdv.view.cancelSentHere := false
          rdv.view.expiredCancelling := false
          tm.slot := some
            { state := .queued, kind := .cancelFrame group tag, attempts := 0,
              removal := false } }))) ∧
  ∀ (adr tag : Byte) (s : State), OnBus s → s.hs.window ≠ none →
    (s.hs.role = .participant .preparing ∧ s.line.sense.offer = false) ∨
      s.hs.role = .bystander →
    s.rm.state = .idle → s.fe.frame.position ≠ .none → s.fe.frame.type = some typeCancel →
    let ended : State := { s with
      line.drive.pend := s.line.drive.pend || s.hs.role == .bystander
      line.drive.wait := false
      hs.window := none
      hs.role := .participant .ready
      fe.frame := FrameState.absent }
    (s.rdv.view.state = .none ∨ s.rdv.view.state = .provisional →
      NextIs .completionWindowEnd s ended) ∧
    (s.rdv.view.state = .observing →
      (s.fe.frame.verdict ≠ some .good ∨ s.fe.frame.payloadCount = some 0 →
        NextIs .completionWindowEnd s ended) ∧
      (s.fe.frame.verdict = some .good → s.fe.frame.payloadCount = some 1 →
        s.fe.frame.address = some adr → s.fe.frame.tag = some tag →
        (s.rdv.view.tagKnown = false ∨
            (s.rdv.view.group = some adr ∧ s.rdv.view.tag = some tag) →
          NextIs .completionWindowEnd s { ended with rdv.view := View.absent }) ∧
        (s.rdv.view.tagKnown = true →
          s.rdv.view.group ≠ some adr ∨ s.rdv.view.tag ≠ some tag →
          NextIs .completionWindowEnd s ended)))

/-- TRG_RELEASE_SENSED, FIRE_DELAY_END and FIRE_PULSE_END: an ARMED view without closing notes the sensed time, held at once under BRK; 200 ns later FIRE goes high and FIRED is written with that time and a CANCEL for the view's tag is purged from the slot; the pulse ends low after its 1 µs, and no sooner. An OBSERVING view enters NONE; other views ignore the edge. -/
def Obligations.ArmedViewFires : Prop :=
  ∀ (group tag : Byte) (role : RdvRole) (s : State), OnBus s →
    (s.rdv.view.state = .armed → s.rdv.view.closing = false → s.rdv.view.fire = .clear →
      NextIs .trgReleaseSensed s { s with
        line.sense.trg := false
        line.trgDelay := some 0
        rdv.view.fire :=
          if s.line.sense.brk then .held s.ctl.clock else .pending s.ctl.clock 0 }) ∧
    (s.rdv.view.state = .observing →
      NextIs .trgReleaseSensed s { s with
        line.sense.trg := false, line.trgDelay := some 0, rdv.view := View.absent }) ∧
    (s.rdv.view.state = .none ∨ s.rdv.view.state = .provisional ∨
        s.rdv.view.state = .waiting ∨ s.rdv.view.state = .cancelling ∨
        (s.rdv.view.state = .armed ∧ s.rdv.view.closing = true) →
      NextIs .trgReleaseSensed s { s with line.sense.trg := false, line.trgDelay := some 0 }) ∧
    (∀ at' n, s.rdv.view.fire = .pending at' n → s.rdv.view.group = some group →
      s.rdv.view.tag = some tag → s.rdv.view.role = some role →
      s.ctl.resetInProgress = false → s.rdv.outcomes.length < 4 →
      NextIs .fireDelayEnd s { s with
        line.drive.trg := false
        rdv.firePulse := some 0
        rdv.view := View.absent
        tm.slot := purgedSlot tag s.tm.slot
        rdv.outcomes := s.rdv.outcomes ++
          [{ tag := tag, group := group, role := role, outcome := .fired, reason := none,
             expiredHere := s.rdv.view.expiredHere,
             cancelSentHere := s.rdv.view.cancelSentHere,
             openedAt := s.rdv.view.openedAt, closedAt := at' }] }) ∧
    (∀ n, s.rdv.firePulse = some n →
      (20 ≤ n → NextIs .firePulseEnd s { s with rdv.firePulse := none }) ∧
      (n < 20 → NextIs .firePulseEnd s s))

/-- DEADLINE_EXPIRY: the timer stops and expired-here is set; WAITING or ARMED without a pending fire places an automatic CANCEL unless the slot is in use; CANCELLING places none. -/
def Obligations.DeadlineExpiryByView : Prop :=
  ∀ (group tag : Byte) (s : State), Running s → s.rdv.view.timer ≠ none →
    s.rdv.view.group = some group → s.rdv.view.tag = some tag →
    (s.rdv.view.state = .waiting ∨ s.rdv.view.state = .armed → s.rdv.view.fire = .clear →
      (s.tm.slot = none →
        NextIs .deadlineExpiry s
          (askArbiter { s with
            rdv.view.timer := none
            rdv.view.expiredHere := true
            tm.slot := some
              { state := .queued, kind := .cancelFrame group tag, attempts := 0,
                removal := false } })) ∧
      (s.tm.slot ≠ none →
        NextIs .deadlineExpiry s { s with
          rdv.view.timer := none, rdv.view.expiredHere := true })) ∧
    (s.rdv.view.state = .armed → s.rdv.view.fire ≠ .clear →
      NextIs .deadlineExpiry s { s with
        rdv.view.timer := none, rdv.view.expiredHere := true }) ∧
    (s.rdv.view.state = .cancelling →
      NextIs .deadlineExpiry s { s with
        rdv.view.timer := none
        rdv.view.expiredHere := true
        rdv.view.expiredCancelling := true })

/-- A record joins the tail of the outcome queue; a full queue first loses its oldest record, which is counted in outcomes lost. -/
def Obligations.OutcomeQueueDropsItsOldest : Prop :=
  ∀ (r : OutcomeRecord) (s : State),
    (s.rdv.outcomes.length < 4 →
      addOutcome r s = { s with rdv.outcomes := s.rdv.outcomes ++ [r] }) ∧
    (s.rdv.outcomes.length = 4 →
      addOutcome r s = { s with
        rdv.outcomes := s.rdv.outcomes.drop 1 ++ [r]
        rdv.reading := false
        cause.counters.outcomesLost := countUp s.cause.counters.outcomesLost })

/-! ### Joining -/

/-- PARTICIPATION_BEGIN in AWAIT_CLEAR with OWN and BRK sensed released: PEND is asserted, the station is in READY, the view observes if TRG is asserted, the HELLO is QUEUED with REQ asserted, and bids at once with REQ released. JOIN in OFFLINE on a bus whose OWN and BRK are released begins participation in its own action, to the same effect, with JOIN_STARTED set (the levels that JOIN finds are the model's own field, log 8; that the moment may be this action is R150's, its place there log 13). That D0–D7 are sensed released on the idle bus is the model's reading (log 11). -/
def Obligations.ParticipationBeginsAtRest : Prop :=
  ∀ (req trg : Bool) (s : State), Running s → s.ctl.resetInProgress = false →
    s.tm.slot = none →
    let atRest (t : State) : State := { t with
      line.sense.req := req
      line.sense.trg := trg
      line.drive.pend := true
      line.drive.wait := false
      hs.role := .participant .ready
      hs.silence := if t.line.sense.own || req then some 0 else none
      rdv.view := if trg then { View.absent with state := .observing } else t.rdv.view
      ctl.joinPhase := some .participating }
    let waits (t : State) : State := { atRest t with
      arb.phase := .outside
      arb.bid := none
      arb.settle := none
      arb.roundGap := none
      tm.slot := some { state := .queued, kind := .hello, attempts := 0, removal := false } }
    let bids (t : State) : State := { atRest t with
      line.sense.data := 0
      line.drive.req := true
      line.drive.data := 0x80 ||| numberByte s.ctl.number
      arb.phase := .bidding
      arb.bid := some (0x80 ||| numberByte s.ctl.number)
      arb.settle := some 0
      arb.roundGap := none
      tm.slot := some { state := .selected, kind := .hello, attempts := 0, removal := false } }
    (s.ctl.state = .joining → s.ctl.joinPhase = some .awaitClear → s.line.sense.own = false →
      s.line.sense.brk = false →
      (req = true → NextIs (.participationBegin req trg) s (waits s)) ∧
      (req = false → NextIs (.participationBegin req trg) s (bids s))) ∧
    (s.ctl.state = .offline → s.port.phase = .command → s.pins.own = false →
      s.pins.brk = false → s.pins.req = req → s.pins.trg = trg →
      let joining : State := { s with
        line.sense.own := false
        line.sense.brk := false
        ctl.state := .joining
        ctl.leaveRequested := false
        cause.station := true
        cause.reason := some .joinStarted }
      (req = true →
        NextIs .join s { waits joining with
          port := HostPort.busyWith (some 0x03) (.result [0x00]) }) ∧
      (req = false →
        NextIs .join s { bids joining with
          port := HostPort.busyWith (some 0x03) (.result [0x00]) }))

/-! ### Invariants that every step keeps -/

/-- Every step keeps the contents of the packet memory in canonical form. -/
def Obligations.StepKeepsMemoryCanonical : Prop :=
  ∀ s t : State, MemoryCanonical s → step s = .next t → MemoryCanonical t

/-- Every step keeps the configuration record in its ranges, with the silence time greater than the stall time. Every step keeps the attempts of every descriptor and of the slot frame in the range 0–8. -/
def Obligations.StepKeepsConfigurationAndAttempts : Prop :=
  (∀ s t : State, ConfigurationLegal s → step s = .next t → ConfigurationLegal t) ∧
  ∀ s t : State, ConfigurationLegal s → OrdersAgree s → AttemptsInRange s → step s = .next t →
    AttemptsInRange t

/-- Every step keeps the level causes equal to their owners' conditions, and INT asserted exactly while a cause is pending and enabled. -/
def Obligations.StepKeepsLevelsAndInt : Prop :=
  ∀ s t : State, LevelsSettled s → step s = .next t → LevelsSettled t

/-- Every step keeps at most 4 outcome records and at most 32 records with the reserved slot. Every step keeps the blocks held by descriptors within the transmit quota. -/
def Obligations.StepKeepsCapacities : Prop :=
  (∀ s t : State, QueuesBounded s → step s = .next t → QueuesBounded t) ∧
  ∀ s t : State, QuotaKept s → step s = .next t → QuotaKept t

/-- Every step keeps the three orders of the frame table in agreement with the states of the descriptors. Every step keeps each of the 128 blocks with exactly one owner, so that the three counts of SNAPSHOT sum to 128. -/
def Obligations.StepKeepsOrdersAndBlocks : Prop :=
  (∀ s t : State, OrdersAgree s → step s = .next t → OrdersAgree t) ∧
  (∀ s t : State, OrdersAgree s → BlocksOwned s → step s = .next t → BlocksOwned t) ∧
  ∀ s : State, BlocksOwned s → freeCount s + transmitHeld s + receiveHeld s = 128

/-- Every step keeps a station that is OFFLINE or FAULTED off the bus. -/
def Obligations.StepKeepsOffBusQuiet : Prop :=
  ∀ s t : State, OffBusQuiet s → step s = .next t → OffBusQuiet t

/-- The state after power-on reset has every one of these invariants. -/
def Obligations.ResetHasTheInvariants : Prop :=
  MemoryCanonical State.reset ∧ ConfigurationLegal State.reset ∧ LevelsSettled State.reset ∧
    QueuesBounded State.reset ∧ QuotaKept State.reset ∧ OrdersAgree State.reset ∧
    BlocksOwned State.reset ∧ OffBusQuiet State.reset ∧ AttemptsInRange State.reset
end

