-- ==== Sys2Proof/Laws/Frame.lean ====
section
/-! SUPPORT. The frame of every shared operation: the parts of the state it leaves unchanged. -/

namespace Sys2Proof.Machine

open Sys2Proof

@[simp] theorem returnToPool_keeps (blocks : List Nat) (s : State) :
    (returnToPool blocks s).power = s.power ∧ (returnToPool blocks s).line = s.line ∧
    (returnToPool blocks s).hs = s.hs ∧ (returnToPool blocks s).arb = s.arb ∧
    (returnToPool blocks s).fe = s.fe ∧ (returnToPool blocks s).tm = s.tm ∧
    (returnToPool blocks s).rm = s.rm ∧ (returnToPool blocks s).rdv = s.rdv ∧
    (returnToPool blocks s).ctl = s.ctl ∧ (returnToPool blocks s).port = s.port ∧
    (returnToPool blocks s).cause = s.cause ∧ (returnToPool blocks s).pins = s.pins ∧
    (returnToPool blocks s).refPhase = s.refPhase ∧ (returnToPool blocks s).freeIndex = s.freeIndex ∧
    (returnToPool blocks s).pending = s.pending := by
  simp only [returnToPool]
  simp

@[simp] theorem releaseTrg_keeps (s : State) :
    (releaseTrg s).power = s.power ∧ (releaseTrg s).hs = s.hs ∧
    (releaseTrg s).arb = s.arb ∧ (releaseTrg s).fe = s.fe ∧
    (releaseTrg s).tm = s.tm ∧ (releaseTrg s).rm = s.rm ∧
    (releaseTrg s).mem = s.mem ∧ (releaseTrg s).rdv = s.rdv ∧
    (releaseTrg s).ctl = s.ctl ∧ (releaseTrg s).port = s.port ∧
    (releaseTrg s).cause = s.cause ∧ (releaseTrg s).pins = s.pins ∧
    (releaseTrg s).refPhase = s.refPhase ∧ (releaseTrg s).freeIndex = s.freeIndex ∧
    (releaseTrg s).pending = s.pending := by
  simp only [releaseTrg]
  (repeat' split) <;> simp

@[simp] theorem assertTrg_keeps (s : State) :
    (assertTrg s).power = s.power ∧ (assertTrg s).hs = s.hs ∧
    (assertTrg s).arb = s.arb ∧ (assertTrg s).fe = s.fe ∧
    (assertTrg s).tm = s.tm ∧ (assertTrg s).rm = s.rm ∧
    (assertTrg s).mem = s.mem ∧ (assertTrg s).rdv = s.rdv ∧
    (assertTrg s).ctl = s.ctl ∧ (assertTrg s).port = s.port ∧
    (assertTrg s).cause = s.cause ∧ (assertTrg s).pins = s.pins ∧
    (assertTrg s).refPhase = s.refPhase ∧ (assertTrg s).freeIndex = s.freeIndex ∧
    (assertTrg s).pending = s.pending := by
  simp only [assertTrg]
  simp

@[simp] theorem restartSilence_keeps (s : State) :
    (restartSilence s).power = s.power ∧ (restartSilence s).arb = s.arb ∧
    (restartSilence s).fe = s.fe ∧ (restartSilence s).tm = s.tm ∧
    (restartSilence s).rm = s.rm ∧ (restartSilence s).mem = s.mem ∧
    (restartSilence s).rdv = s.rdv ∧ (restartSilence s).ctl = s.ctl ∧
    (restartSilence s).port = s.port ∧ (restartSilence s).cause = s.cause ∧
    (restartSilence s).pins = s.pins ∧ (restartSilence s).refPhase = s.refPhase ∧
    (restartSilence s).freeIndex = s.freeIndex ∧ (restartSilence s).pending = s.pending := by
  simp only [restartSilence]
  simp

@[simp] theorem stopSilence_keeps (s : State) :
    (stopSilence s).power = s.power ∧ (stopSilence s).arb = s.arb ∧
    (stopSilence s).fe = s.fe ∧ (stopSilence s).tm = s.tm ∧
    (stopSilence s).rm = s.rm ∧ (stopSilence s).mem = s.mem ∧
    (stopSilence s).rdv = s.rdv ∧ (stopSilence s).ctl = s.ctl ∧
    (stopSilence s).port = s.port ∧ (stopSilence s).cause = s.cause ∧
    (stopSilence s).pins = s.pins ∧ (stopSilence s).refPhase = s.refPhase ∧
    (stopSilence s).freeIndex = s.freeIndex ∧ (stopSilence s).pending = s.pending := by
  simp only [stopSilence]
  simp

@[simp] theorem resumeSilence_keeps (s : State) :
    (resumeSilence s).power = s.power ∧ (resumeSilence s).line = s.line ∧
    (resumeSilence s).arb = s.arb ∧ (resumeSilence s).fe = s.fe ∧
    (resumeSilence s).tm = s.tm ∧ (resumeSilence s).rm = s.rm ∧
    (resumeSilence s).mem = s.mem ∧ (resumeSilence s).rdv = s.rdv ∧
    (resumeSilence s).ctl = s.ctl ∧ (resumeSilence s).port = s.port ∧
    (resumeSilence s).cause = s.cause ∧ (resumeSilence s).pins = s.pins ∧
    (resumeSilence s).refPhase = s.refPhase ∧ (resumeSilence s).freeIndex = s.freeIndex ∧
    (resumeSilence s).pending = s.pending := by
  simp only [resumeSilence]
  simp

@[simp] theorem restAsParticipant_keeps (s : State) :
    (restAsParticipant s).power = s.power ∧ (restAsParticipant s).arb = s.arb ∧
    (restAsParticipant s).fe = s.fe ∧ (restAsParticipant s).tm = s.tm ∧
    (restAsParticipant s).rm = s.rm ∧ (restAsParticipant s).mem = s.mem ∧
    (restAsParticipant s).rdv = s.rdv ∧ (restAsParticipant s).ctl = s.ctl ∧
    (restAsParticipant s).port = s.port ∧ (restAsParticipant s).cause = s.cause ∧
    (restAsParticipant s).pins = s.pins ∧ (restAsParticipant s).refPhase = s.refPhase ∧
    (restAsParticipant s).freeIndex = s.freeIndex ∧ (restAsParticipant s).pending = s.pending := by
  simp only [restAsParticipant]
  simp

@[simp] theorem requestFrameBreak_keeps (reason : FrameBreakReason) (s : State) :
    (requestFrameBreak reason s).power = s.power ∧ (requestFrameBreak reason s).hs = s.hs ∧
    (requestFrameBreak reason s).arb = s.arb ∧ (requestFrameBreak reason s).fe = s.fe ∧
    (requestFrameBreak reason s).tm = s.tm ∧ (requestFrameBreak reason s).rm = s.rm ∧
    (requestFrameBreak reason s).mem = s.mem ∧ (requestFrameBreak reason s).rdv = s.rdv ∧
    (requestFrameBreak reason s).ctl = s.ctl ∧ (requestFrameBreak reason s).port = s.port ∧
    (requestFrameBreak reason s).cause = s.cause ∧ (requestFrameBreak reason s).pins = s.pins ∧
    (requestFrameBreak reason s).refPhase = s.refPhase ∧ (requestFrameBreak reason s).freeIndex = s.freeIndex ∧
    (requestFrameBreak reason s).pending = s.pending := by
  simp only [requestFrameBreak]
  (repeat' split) <;> simp

@[simp] theorem startClearBreak_keeps (s : State) :
    (startClearBreak s).power = s.power ∧ (startClearBreak s).hs = s.hs ∧
    (startClearBreak s).arb = s.arb ∧ (startClearBreak s).fe = s.fe ∧
    (startClearBreak s).tm = s.tm ∧ (startClearBreak s).rm = s.rm ∧
    (startClearBreak s).mem = s.mem ∧ (startClearBreak s).rdv = s.rdv ∧
    (startClearBreak s).ctl = s.ctl ∧ (startClearBreak s).port = s.port ∧
    (startClearBreak s).cause = s.cause ∧ (startClearBreak s).pins = s.pins ∧
    (startClearBreak s).refPhase = s.refPhase ∧ (startClearBreak s).freeIndex = s.freeIndex ∧
    (startClearBreak s).pending = s.pending := by
  simp only [startClearBreak]
  (repeat' split) <;> simp

@[simp] theorem requestClearBreak_keeps (s : State) :
    (requestClearBreak s).power = s.power ∧ (requestClearBreak s).hs = s.hs ∧
    (requestClearBreak s).arb = s.arb ∧ (requestClearBreak s).fe = s.fe ∧
    (requestClearBreak s).tm = s.tm ∧ (requestClearBreak s).rm = s.rm ∧
    (requestClearBreak s).mem = s.mem ∧ (requestClearBreak s).rdv = s.rdv ∧
    (requestClearBreak s).ctl = s.ctl ∧ (requestClearBreak s).port = s.port ∧
    (requestClearBreak s).cause = s.cause ∧ (requestClearBreak s).pins = s.pins ∧
    (requestClearBreak s).refPhase = s.refPhase ∧ (requestClearBreak s).freeIndex = s.freeIndex ∧
    (requestClearBreak s).pending = s.pending := by
  simp only [requestClearBreak]
  (repeat' split) <;> simp

@[simp] theorem handStation_keeps (reason : StationReason) (s : State) :
    (handStation reason s).power = s.power ∧ (handStation reason s).line = s.line ∧
    (handStation reason s).hs = s.hs ∧ (handStation reason s).arb = s.arb ∧
    (handStation reason s).fe = s.fe ∧ (handStation reason s).tm = s.tm ∧
    (handStation reason s).rm = s.rm ∧ (handStation reason s).mem = s.mem ∧
    (handStation reason s).rdv = s.rdv ∧ (handStation reason s).ctl = s.ctl ∧
    (handStation reason s).port = s.port ∧ (handStation reason s).pins = s.pins ∧
    (handStation reason s).refPhase = s.refPhase ∧ (handStation reason s).freeIndex = s.freeIndex ∧
    (handStation reason s).pending = s.pending := by
  simp only [handStation]
  simp

@[simp] theorem handPort_keeps (s : State) :
    (handPort s).power = s.power ∧ (handPort s).line = s.line ∧
    (handPort s).hs = s.hs ∧ (handPort s).arb = s.arb ∧
    (handPort s).fe = s.fe ∧ (handPort s).tm = s.tm ∧
    (handPort s).rm = s.rm ∧ (handPort s).mem = s.mem ∧
    (handPort s).rdv = s.rdv ∧ (handPort s).ctl = s.ctl ∧
    (handPort s).port = s.port ∧ (handPort s).pins = s.pins ∧
    (handPort s).refPhase = s.refPhase ∧ (handPort s).freeIndex = s.freeIndex ∧
    (handPort s).pending = s.pending := by
  simp only [handPort]
  simp

@[simp] theorem handFrameBreak_keeps (s : State) :
    (handFrameBreak s).power = s.power ∧ (handFrameBreak s).line = s.line ∧
    (handFrameBreak s).hs = s.hs ∧ (handFrameBreak s).arb = s.arb ∧
    (handFrameBreak s).fe = s.fe ∧ (handFrameBreak s).tm = s.tm ∧
    (handFrameBreak s).rm = s.rm ∧ (handFrameBreak s).mem = s.mem ∧
    (handFrameBreak s).rdv = s.rdv ∧ (handFrameBreak s).ctl = s.ctl ∧
    (handFrameBreak s).port = s.port ∧ (handFrameBreak s).pins = s.pins ∧
    (handFrameBreak s).refPhase = s.refPhase ∧ (handFrameBreak s).freeIndex = s.freeIndex ∧
    (handFrameBreak s).pending = s.pending := by
  simp only [handFrameBreak]
  simp

@[simp] theorem handClearBreak_keeps (s : State) :
    (handClearBreak s).power = s.power ∧ (handClearBreak s).line = s.line ∧
    (handClearBreak s).hs = s.hs ∧ (handClearBreak s).arb = s.arb ∧
    (handClearBreak s).fe = s.fe ∧ (handClearBreak s).tm = s.tm ∧
    (handClearBreak s).rm = s.rm ∧ (handClearBreak s).mem = s.mem ∧
    (handClearBreak s).rdv = s.rdv ∧ (handClearBreak s).ctl = s.ctl ∧
    (handClearBreak s).port = s.port ∧ (handClearBreak s).pins = s.pins ∧
    (handClearBreak s).refPhase = s.refPhase ∧ (handClearBreak s).freeIndex = s.freeIndex ∧
    (handClearBreak s).pending = s.pending := by
  simp only [handClearBreak]
  simp

@[simp] theorem handDuplicate_keeps (s : State) :
    (handDuplicate s).power = s.power ∧ (handDuplicate s).line = s.line ∧
    (handDuplicate s).hs = s.hs ∧ (handDuplicate s).arb = s.arb ∧
    (handDuplicate s).fe = s.fe ∧ (handDuplicate s).tm = s.tm ∧
    (handDuplicate s).rm = s.rm ∧ (handDuplicate s).mem = s.mem ∧
    (handDuplicate s).rdv = s.rdv ∧ (handDuplicate s).ctl = s.ctl ∧
    (handDuplicate s).port = s.port ∧ (handDuplicate s).pins = s.pins ∧
    (handDuplicate s).refPhase = s.refPhase ∧ (handDuplicate s).freeIndex = s.freeIndex ∧
    (handDuplicate s).pending = s.pending := by
  simp only [handDuplicate]
  simp

@[simp] theorem countDropped_keeps (s : State) :
    (countDropped s).power = s.power ∧ (countDropped s).line = s.line ∧
    (countDropped s).hs = s.hs ∧ (countDropped s).arb = s.arb ∧
    (countDropped s).fe = s.fe ∧ (countDropped s).tm = s.tm ∧
    (countDropped s).rm = s.rm ∧ (countDropped s).mem = s.mem ∧
    (countDropped s).rdv = s.rdv ∧ (countDropped s).ctl = s.ctl ∧
    (countDropped s).port = s.port ∧ (countDropped s).pins = s.pins ∧
    (countDropped s).refPhase = s.refPhase ∧ (countDropped s).freeIndex = s.freeIndex ∧
    (countDropped s).pending = s.pending := by
  simp only [countDropped]
  simp

@[simp] theorem countTruncated_keeps (s : State) :
    (countTruncated s).power = s.power ∧ (countTruncated s).line = s.line ∧
    (countTruncated s).hs = s.hs ∧ (countTruncated s).arb = s.arb ∧
    (countTruncated s).fe = s.fe ∧ (countTruncated s).tm = s.tm ∧
    (countTruncated s).rm = s.rm ∧ (countTruncated s).mem = s.mem ∧
    (countTruncated s).rdv = s.rdv ∧ (countTruncated s).ctl = s.ctl ∧
    (countTruncated s).port = s.port ∧ (countTruncated s).pins = s.pins ∧
    (countTruncated s).refPhase = s.refPhase ∧ (countTruncated s).freeIndex = s.freeIndex ∧
    (countTruncated s).pending = s.pending := by
  simp only [countTruncated]
  simp

@[simp] theorem countMalformed_keeps (s : State) :
    (countMalformed s).power = s.power ∧ (countMalformed s).line = s.line ∧
    (countMalformed s).hs = s.hs ∧ (countMalformed s).arb = s.arb ∧
    (countMalformed s).fe = s.fe ∧ (countMalformed s).tm = s.tm ∧
    (countMalformed s).rm = s.rm ∧ (countMalformed s).mem = s.mem ∧
    (countMalformed s).rdv = s.rdv ∧ (countMalformed s).ctl = s.ctl ∧
    (countMalformed s).port = s.port ∧ (countMalformed s).pins = s.pins ∧
    (countMalformed s).refPhase = s.refPhase ∧ (countMalformed s).freeIndex = s.freeIndex ∧
    (countMalformed s).pending = s.pending := by
  simp only [countMalformed]
  simp

@[simp] theorem countOutcomeLost_keeps (s : State) :
    (countOutcomeLost s).power = s.power ∧ (countOutcomeLost s).line = s.line ∧
    (countOutcomeLost s).hs = s.hs ∧ (countOutcomeLost s).arb = s.arb ∧
    (countOutcomeLost s).fe = s.fe ∧ (countOutcomeLost s).tm = s.tm ∧
    (countOutcomeLost s).rm = s.rm ∧ (countOutcomeLost s).mem = s.mem ∧
    (countOutcomeLost s).rdv = s.rdv ∧ (countOutcomeLost s).ctl = s.ctl ∧
    (countOutcomeLost s).port = s.port ∧ (countOutcomeLost s).pins = s.pins ∧
    (countOutcomeLost s).refPhase = s.refPhase ∧ (countOutcomeLost s).freeIndex = s.freeIndex ∧
    (countOutcomeLost s).pending = s.pending := by
  simp only [countOutcomeLost]
  simp

@[simp] theorem setDescriptor_keeps (i : Fin 16) (d : Descriptor) (s : State) :
    (setDescriptor i d s).power = s.power ∧ (setDescriptor i d s).line = s.line ∧
    (setDescriptor i d s).hs = s.hs ∧ (setDescriptor i d s).arb = s.arb ∧
    (setDescriptor i d s).fe = s.fe ∧ (setDescriptor i d s).rm = s.rm ∧
    (setDescriptor i d s).mem = s.mem ∧ (setDescriptor i d s).rdv = s.rdv ∧
    (setDescriptor i d s).ctl = s.ctl ∧ (setDescriptor i d s).port = s.port ∧
    (setDescriptor i d s).cause = s.cause ∧ (setDescriptor i d s).pins = s.pins ∧
    (setDescriptor i d s).refPhase = s.refPhase ∧ (setDescriptor i d s).freeIndex = s.freeIndex ∧
    (setDescriptor i d s).pending = s.pending := by
  simp only [setDescriptor]
  simp

@[simp] theorem queueAtTail_keeps (i : Fin 16) (s : State) :
    (queueAtTail i s).power = s.power ∧ (queueAtTail i s).line = s.line ∧
    (queueAtTail i s).hs = s.hs ∧ (queueAtTail i s).arb = s.arb ∧
    (queueAtTail i s).fe = s.fe ∧ (queueAtTail i s).rm = s.rm ∧
    (queueAtTail i s).mem = s.mem ∧ (queueAtTail i s).rdv = s.rdv ∧
    (queueAtTail i s).ctl = s.ctl ∧ (queueAtTail i s).port = s.port ∧
    (queueAtTail i s).cause = s.cause ∧ (queueAtTail i s).pins = s.pins ∧
    (queueAtTail i s).refPhase = s.refPhase ∧ (queueAtTail i s).freeIndex = s.freeIndex ∧
    (queueAtTail i s).pending = s.pending := by
  simp only [queueAtTail]
  (repeat' split) <;> simp

@[simp] theorem queueAtHead_keeps (i : Fin 16) (s : State) :
    (queueAtHead i s).power = s.power ∧ (queueAtHead i s).line = s.line ∧
    (queueAtHead i s).hs = s.hs ∧ (queueAtHead i s).arb = s.arb ∧
    (queueAtHead i s).fe = s.fe ∧ (queueAtHead i s).rm = s.rm ∧
    (queueAtHead i s).mem = s.mem ∧ (queueAtHead i s).rdv = s.rdv ∧
    (queueAtHead i s).ctl = s.ctl ∧ (queueAtHead i s).port = s.port ∧
    (queueAtHead i s).cause = s.cause ∧ (queueAtHead i s).pins = s.pins ∧
    (queueAtHead i s).refPhase = s.refPhase ∧ (queueAtHead i s).freeIndex = s.freeIndex ∧
    (queueAtHead i s).pending = s.pending := by
  simp only [queueAtHead]
  (repeat' split) <;> simp

@[simp] theorem leaveQueue_keeps (i : Fin 16) (s : State) :
    (leaveQueue i s).power = s.power ∧ (leaveQueue i s).line = s.line ∧
    (leaveQueue i s).hs = s.hs ∧ (leaveQueue i s).arb = s.arb ∧
    (leaveQueue i s).fe = s.fe ∧ (leaveQueue i s).rm = s.rm ∧
    (leaveQueue i s).mem = s.mem ∧ (leaveQueue i s).rdv = s.rdv ∧
    (leaveQueue i s).ctl = s.ctl ∧ (leaveQueue i s).port = s.port ∧
    (leaveQueue i s).cause = s.cause ∧ (leaveQueue i s).pins = s.pins ∧
    (leaveQueue i s).refPhase = s.refPhase ∧ (leaveQueue i s).freeIndex = s.freeIndex ∧
    (leaveQueue i s).pending = s.pending := by
  simp only [leaveQueue]
  simp

@[simp] theorem setSlot_keeps (slot : Option SlotFrame) (s : State) :
    (setSlot slot s).power = s.power ∧ (setSlot slot s).line = s.line ∧
    (setSlot slot s).hs = s.hs ∧ (setSlot slot s).arb = s.arb ∧
    (setSlot slot s).fe = s.fe ∧ (setSlot slot s).rm = s.rm ∧
    (setSlot slot s).mem = s.mem ∧ (setSlot slot s).rdv = s.rdv ∧
    (setSlot slot s).ctl = s.ctl ∧ (setSlot slot s).port = s.port ∧
    (setSlot slot s).cause = s.cause ∧ (setSlot slot s).pins = s.pins ∧
    (setSlot slot s).refPhase = s.refPhase ∧ (setSlot slot s).freeIndex = s.freeIndex ∧
    (setSlot slot s).pending = s.pending := by
  simp only [setSlot]
  simp

@[simp] theorem removeSlotFrame_keeps (s : State) :
    (removeSlotFrame s).power = s.power ∧ (removeSlotFrame s).line = s.line ∧
    (removeSlotFrame s).hs = s.hs ∧ (removeSlotFrame s).arb = s.arb ∧
    (removeSlotFrame s).fe = s.fe ∧ (removeSlotFrame s).rm = s.rm ∧
    (removeSlotFrame s).mem = s.mem ∧ (removeSlotFrame s).rdv = s.rdv ∧
    (removeSlotFrame s).ctl = s.ctl ∧ (removeSlotFrame s).port = s.port ∧
    (removeSlotFrame s).cause = s.cause ∧ (removeSlotFrame s).pins = s.pins ∧
    (removeSlotFrame s).refPhase = s.refPhase ∧ (removeSlotFrame s).freeIndex = s.freeIndex ∧
    (removeSlotFrame s).pending = s.pending := by
  simp only [removeSlotFrame]
  (repeat' split) <;> simp

@[simp] theorem purgeCancel_keeps (tag : Byte) (s : State) :
    (purgeCancel tag s).power = s.power ∧ (purgeCancel tag s).line = s.line ∧
    (purgeCancel tag s).hs = s.hs ∧ (purgeCancel tag s).arb = s.arb ∧
    (purgeCancel tag s).fe = s.fe ∧ (purgeCancel tag s).rm = s.rm ∧
    (purgeCancel tag s).mem = s.mem ∧ (purgeCancel tag s).rdv = s.rdv ∧
    (purgeCancel tag s).ctl = s.ctl ∧ (purgeCancel tag s).port = s.port ∧
    (purgeCancel tag s).cause = s.cause ∧ (purgeCancel tag s).pins = s.pins ∧
    (purgeCancel tag s).refPhase = s.refPhase ∧ (purgeCancel tag s).freeIndex = s.freeIndex ∧
    (purgeCancel tag s).pending = s.pending := by
  simp only [purgeCancel]
  (repeat' split) <;> simp

@[simp] theorem selectFrame_keeps (f : FrameRef) (s : State) :
    (selectFrame f s).power = s.power ∧ (selectFrame f s).line = s.line ∧
    (selectFrame f s).hs = s.hs ∧ (selectFrame f s).arb = s.arb ∧
    (selectFrame f s).fe = s.fe ∧ (selectFrame f s).rm = s.rm ∧
    (selectFrame f s).mem = s.mem ∧ (selectFrame f s).rdv = s.rdv ∧
    (selectFrame f s).ctl = s.ctl ∧ (selectFrame f s).port = s.port ∧
    (selectFrame f s).cause = s.cause ∧ (selectFrame f s).pins = s.pins ∧
    (selectFrame f s).refPhase = s.refPhase ∧ (selectFrame f s).freeIndex = s.freeIndex ∧
    (selectFrame f s).pending = s.pending := by
  simp only [selectFrame]
  (repeat' split) <;> simp

@[simp] theorem returnSelected_keeps (s : State) :
    (returnSelected s).power = s.power ∧ (returnSelected s).line = s.line ∧
    (returnSelected s).hs = s.hs ∧ (returnSelected s).arb = s.arb ∧
    (returnSelected s).fe = s.fe ∧ (returnSelected s).rm = s.rm ∧
    (returnSelected s).mem = s.mem ∧ (returnSelected s).rdv = s.rdv ∧
    (returnSelected s).ctl = s.ctl ∧ (returnSelected s).port = s.port ∧
    (returnSelected s).cause = s.cause ∧ (returnSelected s).pins = s.pins ∧
    (returnSelected s).refPhase = s.refPhase ∧ (returnSelected s).freeIndex = s.freeIndex ∧
    (returnSelected s).pending = s.pending := by
  simp only [returnSelected]
  (repeat' split) <;> simp

@[simp] theorem beginAttempt_keeps (s : State) :
    (beginAttempt s).power = s.power ∧ (beginAttempt s).line = s.line ∧
    (beginAttempt s).hs = s.hs ∧ (beginAttempt s).arb = s.arb ∧
    (beginAttempt s).fe = s.fe ∧ (beginAttempt s).rm = s.rm ∧
    (beginAttempt s).mem = s.mem ∧ (beginAttempt s).rdv = s.rdv ∧
    (beginAttempt s).ctl = s.ctl ∧ (beginAttempt s).port = s.port ∧
    (beginAttempt s).cause = s.cause ∧ (beginAttempt s).pins = s.pins ∧
    (beginAttempt s).refPhase = s.refPhase ∧ (beginAttempt s).freeIndex = s.freeIndex ∧
    (beginAttempt s).pending = s.pending := by
  simp only [beginAttempt]
  (repeat' split) <;> simp

@[simp] theorem handOutcome_keeps (o : TxOutcome) (s : State) :
    (handOutcome o s).power = s.power ∧ (handOutcome o s).line = s.line ∧
    (handOutcome o s).hs = s.hs ∧ (handOutcome o s).arb = s.arb ∧
    (handOutcome o s).fe = s.fe ∧ (handOutcome o s).rm = s.rm ∧
    (handOutcome o s).mem = s.mem ∧ (handOutcome o s).rdv = s.rdv ∧
    (handOutcome o s).ctl = s.ctl ∧ (handOutcome o s).port = s.port ∧
    (handOutcome o s).cause = s.cause ∧ (handOutcome o s).pins = s.pins ∧
    (handOutcome o s).refPhase = s.refPhase ∧ (handOutcome o s).freeIndex = s.freeIndex ∧
    (handOutcome o s).pending = s.pending := by
  simp only [handOutcome]
  simp

@[simp] theorem openWindow_keeps (f : FrameRef) (s : State) :
    (openWindow f s).power = s.power ∧ (openWindow f s).hs = s.hs ∧
    (openWindow f s).fe = s.fe ∧ (openWindow f s).rm = s.rm ∧
    (openWindow f s).mem = s.mem ∧ (openWindow f s).rdv = s.rdv ∧
    (openWindow f s).ctl = s.ctl ∧ (openWindow f s).port = s.port ∧
    (openWindow f s).cause = s.cause ∧ (openWindow f s).pins = s.pins ∧
    (openWindow f s).refPhase = s.refPhase ∧ (openWindow f s).freeIndex = s.freeIndex ∧
    (openWindow f s).pending = s.pending := by
  simp only [openWindow]
  simp

@[simp] theorem askArbiter_keeps (s : State) :
    (askArbiter s).power = s.power ∧ (askArbiter s).hs = s.hs ∧
    (askArbiter s).fe = s.fe ∧ (askArbiter s).rm = s.rm ∧
    (askArbiter s).mem = s.mem ∧ (askArbiter s).rdv = s.rdv ∧
    (askArbiter s).ctl = s.ctl ∧ (askArbiter s).port = s.port ∧
    (askArbiter s).cause = s.cause ∧ (askArbiter s).pins = s.pins ∧
    (askArbiter s).refPhase = s.refPhase ∧ (askArbiter s).freeIndex = s.freeIndex ∧
    (askArbiter s).pending = s.pending := by
  simp only [askArbiter]
  (repeat' split) <;> simp

@[simp] theorem enterStandby_keeps (s : State) :
    (enterStandby s).power = s.power ∧ (enterStandby s).hs = s.hs ∧
    (enterStandby s).fe = s.fe ∧ (enterStandby s).rm = s.rm ∧
    (enterStandby s).mem = s.mem ∧ (enterStandby s).rdv = s.rdv ∧
    (enterStandby s).ctl = s.ctl ∧ (enterStandby s).port = s.port ∧
    (enterStandby s).cause = s.cause ∧ (enterStandby s).pins = s.pins ∧
    (enterStandby s).refPhase = s.refPhase ∧ (enterStandby s).freeIndex = s.freeIndex ∧
    (enterStandby s).pending = s.pending := by
  simp only [enterStandby]
  simp

@[simp] theorem enterOutside_keeps (s : State) :
    (enterOutside s).power = s.power ∧ (enterOutside s).line = s.line ∧
    (enterOutside s).hs = s.hs ∧ (enterOutside s).fe = s.fe ∧
    (enterOutside s).tm = s.tm ∧ (enterOutside s).rm = s.rm ∧
    (enterOutside s).mem = s.mem ∧ (enterOutside s).rdv = s.rdv ∧
    (enterOutside s).ctl = s.ctl ∧ (enterOutside s).port = s.port ∧
    (enterOutside s).cause = s.cause ∧ (enterOutside s).pins = s.pins ∧
    (enterOutside s).refPhase = s.refPhase ∧ (enterOutside s).freeIndex = s.freeIndex ∧
    (enterOutside s).pending = s.pending := by
  simp only [enterOutside]
  simp

@[simp] theorem giveUpBid_keeps (s : State) :
    (giveUpBid s).power = s.power ∧ (giveUpBid s).hs = s.hs ∧
    (giveUpBid s).fe = s.fe ∧ (giveUpBid s).rm = s.rm ∧
    (giveUpBid s).mem = s.mem ∧ (giveUpBid s).rdv = s.rdv ∧
    (giveUpBid s).ctl = s.ctl ∧ (giveUpBid s).port = s.port ∧
    (giveUpBid s).cause = s.cause ∧ (giveUpBid s).pins = s.pins ∧
    (giveUpBid s).refPhase = s.refPhase ∧ (giveUpBid s).freeIndex = s.freeIndex ∧
    (giveUpBid s).pending = s.pending := by
  simp only [giveUpBid]
  simp

@[simp] theorem placeSlotFrame_keeps (kind : SlotKind) (s : State) :
    (placeSlotFrame kind s).power = s.power ∧ (placeSlotFrame kind s).hs = s.hs ∧
    (placeSlotFrame kind s).fe = s.fe ∧ (placeSlotFrame kind s).rm = s.rm ∧
    (placeSlotFrame kind s).mem = s.mem ∧ (placeSlotFrame kind s).rdv = s.rdv ∧
    (placeSlotFrame kind s).ctl = s.ctl ∧ (placeSlotFrame kind s).port = s.port ∧
    (placeSlotFrame kind s).cause = s.cause ∧ (placeSlotFrame kind s).pins = s.pins ∧
    (placeSlotFrame kind s).refPhase = s.refPhase ∧ (placeSlotFrame kind s).freeIndex = s.freeIndex ∧
    (placeSlotFrame kind s).pending = s.pending := by
  simp only [placeSlotFrame]
  simp

@[simp] theorem placeCancel_keeps (group tag : Byte) (s : State) :
    (placeCancel group tag s).power = s.power ∧ (placeCancel group tag s).hs = s.hs ∧
    (placeCancel group tag s).fe = s.fe ∧ (placeCancel group tag s).rm = s.rm ∧
    (placeCancel group tag s).mem = s.mem ∧ (placeCancel group tag s).rdv = s.rdv ∧
    (placeCancel group tag s).ctl = s.ctl ∧ (placeCancel group tag s).port = s.port ∧
    (placeCancel group tag s).cause = s.cause ∧ (placeCancel group tag s).pins = s.pins ∧
    (placeCancel group tag s).refPhase = s.refPhase ∧ (placeCancel group tag s).freeIndex = s.freeIndex ∧
    (placeCancel group tag s).pending = s.pending := by
  simp only [placeCancel]
  (repeat' split) <;> simp

@[simp] theorem reqSensed_keeps (s : State) :
    (reqSensed s).power = s.power ∧ (reqSensed s).fe = s.fe ∧
    (reqSensed s).rm = s.rm ∧ (reqSensed s).mem = s.mem ∧
    (reqSensed s).rdv = s.rdv ∧ (reqSensed s).ctl = s.ctl ∧
    (reqSensed s).port = s.port ∧ (reqSensed s).cause = s.cause ∧
    (reqSensed s).pins = s.pins ∧ (reqSensed s).refPhase = s.refPhase ∧
    (reqSensed s).freeIndex = s.freeIndex ∧ (reqSensed s).pending = s.pending := by
  simp only [reqSensed]
  (repeat' split) <;> simp

@[simp] theorem bidLineChange_keeps (d : Byte) (s : State) :
    (bidLineChange d s).power = s.power ∧ (bidLineChange d s).hs = s.hs ∧
    (bidLineChange d s).arb = s.arb ∧ (bidLineChange d s).fe = s.fe ∧
    (bidLineChange d s).tm = s.tm ∧ (bidLineChange d s).rm = s.rm ∧
    (bidLineChange d s).mem = s.mem ∧ (bidLineChange d s).rdv = s.rdv ∧
    (bidLineChange d s).ctl = s.ctl ∧ (bidLineChange d s).port = s.port ∧
    (bidLineChange d s).cause = s.cause ∧ (bidLineChange d s).pins = s.pins ∧
    (bidLineChange d s).refPhase = s.refPhase ∧ (bidLineChange d s).freeIndex = s.freeIndex ∧
    (bidLineChange d s).pending = s.pending := by
  simp only [bidLineChange]
  (repeat' split) <;> simp

@[simp] theorem arbitrationDecision_keeps (d : Byte) (s : State) :
    (arbitrationDecision d s).power = s.power ∧ (arbitrationDecision d s).hs = s.hs ∧
    (arbitrationDecision d s).fe = s.fe ∧ (arbitrationDecision d s).rm = s.rm ∧
    (arbitrationDecision d s).mem = s.mem ∧ (arbitrationDecision d s).rdv = s.rdv ∧
    (arbitrationDecision d s).ctl = s.ctl ∧ (arbitrationDecision d s).port = s.port ∧
    (arbitrationDecision d s).cause = s.cause ∧ (arbitrationDecision d s).pins = s.pins ∧
    (arbitrationDecision d s).refPhase = s.refPhase ∧ (arbitrationDecision d s).freeIndex = s.freeIndex ∧
    (arbitrationDecision d s).pending = s.pending := by
  simp only [arbitrationDecision]
  (repeat' split) <;> simp

@[simp] theorem wonHoldEnd_keeps (s : State) :
    (wonHoldEnd s).power = s.power ∧ (wonHoldEnd s).rm = s.rm ∧
    (wonHoldEnd s).mem = s.mem ∧ (wonHoldEnd s).rdv = s.rdv ∧
    (wonHoldEnd s).ctl = s.ctl ∧ (wonHoldEnd s).port = s.port ∧
    (wonHoldEnd s).cause = s.cause ∧ (wonHoldEnd s).pins = s.pins ∧
    (wonHoldEnd s).refPhase = s.refPhase ∧ (wonHoldEnd s).freeIndex = s.freeIndex ∧
    (wonHoldEnd s).pending = s.pending := by
  simp only [wonHoldEnd]
  (repeat' split) <;> simp

@[simp] theorem roundGapExpiry_keeps (s : State) :
    (roundGapExpiry s).power = s.power ∧ (roundGapExpiry s).hs = s.hs ∧
    (roundGapExpiry s).fe = s.fe ∧ (roundGapExpiry s).rm = s.rm ∧
    (roundGapExpiry s).mem = s.mem ∧ (roundGapExpiry s).rdv = s.rdv ∧
    (roundGapExpiry s).ctl = s.ctl ∧ (roundGapExpiry s).port = s.port ∧
    (roundGapExpiry s).cause = s.cause ∧ (roundGapExpiry s).pins = s.pins ∧
    (roundGapExpiry s).refPhase = s.refPhase ∧ (roundGapExpiry s).freeIndex = s.freeIndex ∧
    (roundGapExpiry s).pending = s.pending := by
  simp only [roundGapExpiry]
  (repeat' split) <;> simp

@[simp] theorem setView_keeps (v : View) (s : State) :
    (setView v s).power = s.power ∧ (setView v s).line = s.line ∧
    (setView v s).hs = s.hs ∧ (setView v s).arb = s.arb ∧
    (setView v s).fe = s.fe ∧ (setView v s).tm = s.tm ∧
    (setView v s).rm = s.rm ∧ (setView v s).mem = s.mem ∧
    (setView v s).ctl = s.ctl ∧ (setView v s).port = s.port ∧
    (setView v s).cause = s.cause ∧ (setView v s).pins = s.pins ∧
    (setView v s).refPhase = s.refPhase ∧ (setView v s).freeIndex = s.freeIndex ∧
    (setView v s).pending = s.pending := by
  simp only [setView]
  simp

@[simp] theorem addOutcome_keeps (r : OutcomeRecord) (s : State) :
    (addOutcome r s).power = s.power ∧ (addOutcome r s).line = s.line ∧
    (addOutcome r s).hs = s.hs ∧ (addOutcome r s).arb = s.arb ∧
    (addOutcome r s).fe = s.fe ∧ (addOutcome r s).tm = s.tm ∧
    (addOutcome r s).rm = s.rm ∧ (addOutcome r s).mem = s.mem ∧
    (addOutcome r s).ctl = s.ctl ∧ (addOutcome r s).port = s.port ∧
    (addOutcome r s).pins = s.pins ∧ (addOutcome r s).refPhase = s.refPhase ∧
    (addOutcome r s).freeIndex = s.freeIndex ∧ (addOutcome r s).pending = s.pending := by
  simp only [addOutcome]
  (repeat' split) <;> simp

@[simp] theorem closeView_keeps (o : RdvOutcome) (closedAt : ClockTime) (s : State) :
    (closeView o closedAt s).power = s.power ∧ (closeView o closedAt s).hs = s.hs ∧
    (closeView o closedAt s).arb = s.arb ∧ (closeView o closedAt s).fe = s.fe ∧
    (closeView o closedAt s).rm = s.rm ∧ (closeView o closedAt s).mem = s.mem ∧
    (closeView o closedAt s).ctl = s.ctl ∧ (closeView o closedAt s).port = s.port ∧
    (closeView o closedAt s).pins = s.pins ∧ (closeView o closedAt s).refPhase = s.refPhase ∧
    (closeView o closedAt s).freeIndex = s.freeIndex ∧ (closeView o closedAt s).pending = s.pending := by
  simp only [closeView]
  simp

@[simp] theorem notOpened_keeps (group tag : Byte) (reason : NotOpenedReason) (s : State) :
    (notOpened group tag reason s).power = s.power ∧ (notOpened group tag reason s).line = s.line ∧
    (notOpened group tag reason s).hs = s.hs ∧ (notOpened group tag reason s).arb = s.arb ∧
    (notOpened group tag reason s).fe = s.fe ∧ (notOpened group tag reason s).tm = s.tm ∧
    (notOpened group tag reason s).rm = s.rm ∧ (notOpened group tag reason s).mem = s.mem ∧
    (notOpened group tag reason s).ctl = s.ctl ∧ (notOpened group tag reason s).port = s.port ∧
    (notOpened group tag reason s).pins = s.pins ∧ (notOpened group tag reason s).refPhase = s.refPhase ∧
    (notOpened group tag reason s).freeIndex = s.freeIndex ∧ (notOpened group tag reason s).pending = s.pending := by
  simp only [notOpened]
  simp

@[simp] theorem openFinalAtTalker_keeps (address tag : Byte) (deadline : Deadline) (s : State) :
    (openFinalAtTalker address tag deadline s).power = s.power ∧ (openFinalAtTalker address tag deadline s).hs = s.hs ∧
    (openFinalAtTalker address tag deadline s).arb = s.arb ∧ (openFinalAtTalker address tag deadline s).fe = s.fe ∧
    (openFinalAtTalker address tag deadline s).tm = s.tm ∧ (openFinalAtTalker address tag deadline s).rm = s.rm ∧
    (openFinalAtTalker address tag deadline s).mem = s.mem ∧ (openFinalAtTalker address tag deadline s).ctl = s.ctl ∧
    (openFinalAtTalker address tag deadline s).port = s.port ∧ (openFinalAtTalker address tag deadline s).cause = s.cause ∧
    (openFinalAtTalker address tag deadline s).pins = s.pins ∧ (openFinalAtTalker address tag deadline s).refPhase = s.refPhase ∧
    (openFinalAtTalker address tag deadline s).freeIndex = s.freeIndex ∧ (openFinalAtTalker address tag deadline s).pending = s.pending := by
  simp only [openFinalAtTalker]
  simp

@[simp] theorem openFinalElsewhere_keeps (taken : Bool) (address source tag : Byte) (deadline : Deadline) (s : State) :
    (openFinalElsewhere taken address source tag deadline s).power = s.power ∧ (openFinalElsewhere taken address source tag deadline s).hs = s.hs ∧
    (openFinalElsewhere taken address source tag deadline s).arb = s.arb ∧ (openFinalElsewhere taken address source tag deadline s).fe = s.fe ∧
    (openFinalElsewhere taken address source tag deadline s).tm = s.tm ∧ (openFinalElsewhere taken address source tag deadline s).rm = s.rm ∧
    (openFinalElsewhere taken address source tag deadline s).mem = s.mem ∧ (openFinalElsewhere taken address source tag deadline s).ctl = s.ctl ∧
    (openFinalElsewhere taken address source tag deadline s).port = s.port ∧ (openFinalElsewhere taken address source tag deadline s).cause = s.cause ∧
    (openFinalElsewhere taken address source tag deadline s).pins = s.pins ∧ (openFinalElsewhere taken address source tag deadline s).refPhase = s.refPhase ∧
    (openFinalElsewhere taken address source tag deadline s).freeIndex = s.freeIndex ∧ (openFinalElsewhere taken address source tag deadline s).pending = s.pending := by
  simp only [openFinalElsewhere]
  (repeat' split) <;> simp

@[simp] theorem cancelHeader_keeps (address : Byte) (s : State) :
    (cancelHeader address s).power = s.power ∧ (cancelHeader address s).line = s.line ∧
    (cancelHeader address s).hs = s.hs ∧ (cancelHeader address s).arb = s.arb ∧
    (cancelHeader address s).fe = s.fe ∧ (cancelHeader address s).tm = s.tm ∧
    (cancelHeader address s).rm = s.rm ∧ (cancelHeader address s).mem = s.mem ∧
    (cancelHeader address s).ctl = s.ctl ∧ (cancelHeader address s).port = s.port ∧
    (cancelHeader address s).cause = s.cause ∧ (cancelHeader address s).pins = s.pins ∧
    (cancelHeader address s).refPhase = s.refPhase ∧ (cancelHeader address s).freeIndex = s.freeIndex ∧
    (cancelHeader address s).pending = s.pending := by
  simp only [cancelHeader]
  (repeat' split) <;> simp

@[simp] theorem cancelFinal_keeps (atTalker : Bool) (address tag : Byte) (s : State) :
    (cancelFinal atTalker address tag s).power = s.power ∧ (cancelFinal atTalker address tag s).line = s.line ∧
    (cancelFinal atTalker address tag s).hs = s.hs ∧ (cancelFinal atTalker address tag s).arb = s.arb ∧
    (cancelFinal atTalker address tag s).fe = s.fe ∧ (cancelFinal atTalker address tag s).tm = s.tm ∧
    (cancelFinal atTalker address tag s).rm = s.rm ∧ (cancelFinal atTalker address tag s).mem = s.mem ∧
    (cancelFinal atTalker address tag s).ctl = s.ctl ∧ (cancelFinal atTalker address tag s).port = s.port ∧
    (cancelFinal atTalker address tag s).cause = s.cause ∧ (cancelFinal atTalker address tag s).pins = s.pins ∧
    (cancelFinal atTalker address tag s).refPhase = s.refPhase ∧ (cancelFinal atTalker address tag s).freeIndex = s.freeIndex ∧
    (cancelFinal atTalker address tag s).pending = s.pending := by
  simp only [cancelFinal]
  (repeat' split) <;> simp

@[simp] theorem discardLostOpen_keeps (s : State) :
    (discardLostOpen s).power = s.power ∧ (discardLostOpen s).line = s.line ∧
    (discardLostOpen s).hs = s.hs ∧ (discardLostOpen s).arb = s.arb ∧
    (discardLostOpen s).fe = s.fe ∧ (discardLostOpen s).rm = s.rm ∧
    (discardLostOpen s).mem = s.mem ∧ (discardLostOpen s).ctl = s.ctl ∧
    (discardLostOpen s).port = s.port ∧ (discardLostOpen s).pins = s.pins ∧
    (discardLostOpen s).refPhase = s.refPhase ∧ (discardLostOpen s).freeIndex = s.freeIndex ∧
    (discardLostOpen s).pending = s.pending := by
  simp only [discardLostOpen]
  (repeat' split) <;> simp

@[simp] theorem openCompletion_keeps (s : State) :
    (openCompletion s).power = s.power ∧ (openCompletion s).line = s.line ∧
    (openCompletion s).hs = s.hs ∧ (openCompletion s).arb = s.arb ∧
    (openCompletion s).fe = s.fe ∧ (openCompletion s).rm = s.rm ∧
    (openCompletion s).mem = s.mem ∧ (openCompletion s).ctl = s.ctl ∧
    (openCompletion s).port = s.port ∧ (openCompletion s).pins = s.pins ∧
    (openCompletion s).refPhase = s.refPhase ∧ (openCompletion s).freeIndex = s.freeIndex ∧
    (openCompletion s).pending = s.pending := by
  simp only [openCompletion]
  (repeat' split) <;> simp

@[simp] theorem openAbandoned_keeps (s : State) :
    (openAbandoned s).power = s.power ∧ (openAbandoned s).hs = s.hs ∧
    (openAbandoned s).arb = s.arb ∧ (openAbandoned s).fe = s.fe ∧
    (openAbandoned s).tm = s.tm ∧ (openAbandoned s).rm = s.rm ∧
    (openAbandoned s).mem = s.mem ∧ (openAbandoned s).ctl = s.ctl ∧
    (openAbandoned s).port = s.port ∧ (openAbandoned s).cause = s.cause ∧
    (openAbandoned s).pins = s.pins ∧ (openAbandoned s).refPhase = s.refPhase ∧
    (openAbandoned s).freeIndex = s.freeIndex ∧ (openAbandoned s).pending = s.pending := by
  simp only [openAbandoned]
  (repeat' split) <;> simp

@[simp] theorem applyPendingArm_keeps (s : State) :
    (applyPendingArm s).power = s.power ∧ (applyPendingArm s).hs = s.hs ∧
    (applyPendingArm s).arb = s.arb ∧ (applyPendingArm s).fe = s.fe ∧
    (applyPendingArm s).tm = s.tm ∧ (applyPendingArm s).rm = s.rm ∧
    (applyPendingArm s).mem = s.mem ∧ (applyPendingArm s).ctl = s.ctl ∧
    (applyPendingArm s).port = s.port ∧ (applyPendingArm s).cause = s.cause ∧
    (applyPendingArm s).pins = s.pins ∧ (applyPendingArm s).refPhase = s.refPhase ∧
    (applyPendingArm s).freeIndex = s.freeIndex ∧ (applyPendingArm s).pending = s.pending := by
  simp only [applyPendingArm]
  (repeat' split) <;> simp

@[simp] theorem placeDeferredCancel_keeps (s : State) :
    (placeDeferredCancel s).power = s.power ∧ (placeDeferredCancel s).hs = s.hs ∧
    (placeDeferredCancel s).fe = s.fe ∧ (placeDeferredCancel s).rm = s.rm ∧
    (placeDeferredCancel s).mem = s.mem ∧ (placeDeferredCancel s).ctl = s.ctl ∧
    (placeDeferredCancel s).port = s.port ∧ (placeDeferredCancel s).cause = s.cause ∧
    (placeDeferredCancel s).pins = s.pins ∧ (placeDeferredCancel s).refPhase = s.refPhase ∧
    (placeDeferredCancel s).freeIndex = s.freeIndex ∧ (placeDeferredCancel s).pending = s.pending := by
  simp only [placeDeferredCancel]
  (repeat' split) <;> simp

@[simp] theorem liftFreeze_keeps (s : State) :
    (liftFreeze s).power = s.power ∧ (liftFreeze s).hs = s.hs ∧
    (liftFreeze s).fe = s.fe ∧ (liftFreeze s).rm = s.rm ∧
    (liftFreeze s).mem = s.mem ∧ (liftFreeze s).ctl = s.ctl ∧
    (liftFreeze s).port = s.port ∧ (liftFreeze s).cause = s.cause ∧
    (liftFreeze s).pins = s.pins ∧ (liftFreeze s).refPhase = s.refPhase ∧
    (liftFreeze s).freeIndex = s.freeIndex ∧ (liftFreeze s).pending = s.pending := by
  simp only [liftFreeze]
  (repeat' split) <;> simp

@[simp] theorem cancelCompletion_keeps (address tag : Byte) (s : State) :
    (cancelCompletion address tag s).power = s.power ∧ (cancelCompletion address tag s).hs = s.hs ∧
    (cancelCompletion address tag s).fe = s.fe ∧ (cancelCompletion address tag s).rm = s.rm ∧
    (cancelCompletion address tag s).mem = s.mem ∧ (cancelCompletion address tag s).ctl = s.ctl ∧
    (cancelCompletion address tag s).port = s.port ∧ (cancelCompletion address tag s).pins = s.pins ∧
    (cancelCompletion address tag s).refPhase = s.refPhase ∧ (cancelCompletion address tag s).freeIndex = s.freeIndex ∧
    (cancelCompletion address tag s).pending = s.pending := by
  simp only [cancelCompletion]
  (repeat' split) <;> simp

@[simp] theorem rendezvousCompletion_keeps (f : FrameState) (s : State) :
    (rendezvousCompletion f s).power = s.power ∧ (rendezvousCompletion f s).hs = s.hs ∧
    (rendezvousCompletion f s).fe = s.fe ∧ (rendezvousCompletion f s).rm = s.rm ∧
    (rendezvousCompletion f s).mem = s.mem ∧ (rendezvousCompletion f s).ctl = s.ctl ∧
    (rendezvousCompletion f s).port = s.port ∧ (rendezvousCompletion f s).pins = s.pins ∧
    (rendezvousCompletion f s).refPhase = s.refPhase ∧ (rendezvousCompletion f s).freeIndex = s.freeIndex ∧
    (rendezvousCompletion f s).pending = s.pending := by
  simp only [rendezvousCompletion]
  (repeat' split) <;> simp

@[simp] theorem rendezvousAbandonment_keeps (f : FrameState) (s : State) :
    (rendezvousAbandonment f s).power = s.power ∧ (rendezvousAbandonment f s).hs = s.hs ∧
    (rendezvousAbandonment f s).fe = s.fe ∧ (rendezvousAbandonment f s).rm = s.rm ∧
    (rendezvousAbandonment f s).mem = s.mem ∧ (rendezvousAbandonment f s).ctl = s.ctl ∧
    (rendezvousAbandonment f s).port = s.port ∧ (rendezvousAbandonment f s).cause = s.cause ∧
    (rendezvousAbandonment f s).pins = s.pins ∧ (rendezvousAbandonment f s).refPhase = s.refPhase ∧
    (rendezvousAbandonment f s).freeIndex = s.freeIndex ∧ (rendezvousAbandonment f s).pending = s.pending := by
  simp only [rendezvousAbandonment]
  (repeat' split) <;> simp

@[simp] theorem closeNoListener_keeps (tag : Byte) (s : State) :
    (closeNoListener tag s).power = s.power ∧ (closeNoListener tag s).hs = s.hs ∧
    (closeNoListener tag s).arb = s.arb ∧ (closeNoListener tag s).fe = s.fe ∧
    (closeNoListener tag s).rm = s.rm ∧ (closeNoListener tag s).mem = s.mem ∧
    (closeNoListener tag s).ctl = s.ctl ∧ (closeNoListener tag s).port = s.port ∧
    (closeNoListener tag s).pins = s.pins ∧ (closeNoListener tag s).refPhase = s.refPhase ∧
    (closeNoListener tag s).freeIndex = s.freeIndex ∧ (closeNoListener tag s).pending = s.pending := by
  simp only [closeNoListener]
  (repeat' split) <;> simp

@[simp] theorem applyArm_keeps (s : State) :
    (applyArm s).power = s.power ∧ (applyArm s).hs = s.hs ∧
    (applyArm s).arb = s.arb ∧ (applyArm s).fe = s.fe ∧
    (applyArm s).tm = s.tm ∧ (applyArm s).rm = s.rm ∧
    (applyArm s).mem = s.mem ∧ (applyArm s).ctl = s.ctl ∧
    (applyArm s).port = s.port ∧ (applyArm s).cause = s.cause ∧
    (applyArm s).pins = s.pins ∧ (applyArm s).refPhase = s.refPhase ∧
    (applyArm s).freeIndex = s.freeIndex ∧ (applyArm s).pending = s.pending := by
  simp only [applyArm]
  (repeat' split) <;> simp

@[simp] theorem fire_keeps (sensedAt : ClockTime) (s : State) :
    (fire sensedAt s).power = s.power ∧ (fire sensedAt s).hs = s.hs ∧
    (fire sensedAt s).arb = s.arb ∧ (fire sensedAt s).fe = s.fe ∧
    (fire sensedAt s).rm = s.rm ∧ (fire sensedAt s).mem = s.mem ∧
    (fire sensedAt s).ctl = s.ctl ∧ (fire sensedAt s).port = s.port ∧
    (fire sensedAt s).pins = s.pins ∧ (fire sensedAt s).refPhase = s.refPhase ∧
    (fire sensedAt s).freeIndex = s.freeIndex ∧ (fire sensedAt s).pending = s.pending := by
  simp only [fire]
  simp

@[simp] theorem cmdOpen_keeps (group tag deadlineHigh deadlineLow : Byte) (s : State) :
    (cmdOpen group tag deadlineHigh deadlineLow s).1.power = s.power ∧ (cmdOpen group tag deadlineHigh deadlineLow s).1.hs = s.hs ∧
    (cmdOpen group tag deadlineHigh deadlineLow s).1.fe = s.fe ∧ (cmdOpen group tag deadlineHigh deadlineLow s).1.rm = s.rm ∧
    (cmdOpen group tag deadlineHigh deadlineLow s).1.mem = s.mem ∧ (cmdOpen group tag deadlineHigh deadlineLow s).1.rdv = s.rdv ∧
    (cmdOpen group tag deadlineHigh deadlineLow s).1.ctl = s.ctl ∧ (cmdOpen group tag deadlineHigh deadlineLow s).1.port = s.port ∧
    (cmdOpen group tag deadlineHigh deadlineLow s).1.cause = s.cause ∧ (cmdOpen group tag deadlineHigh deadlineLow s).1.pins = s.pins ∧
    (cmdOpen group tag deadlineHigh deadlineLow s).1.refPhase = s.refPhase ∧ (cmdOpen group tag deadlineHigh deadlineLow s).1.freeIndex = s.freeIndex ∧
    (cmdOpen group tag deadlineHigh deadlineLow s).1.pending = s.pending := by
  simp only [cmdOpen]
  (repeat' split) <;> simp

@[simp] theorem cmdArm_keeps (s : State) :
    (cmdArm s).1.power = s.power ∧ (cmdArm s).1.hs = s.hs ∧
    (cmdArm s).1.arb = s.arb ∧ (cmdArm s).1.fe = s.fe ∧
    (cmdArm s).1.tm = s.tm ∧ (cmdArm s).1.rm = s.rm ∧
    (cmdArm s).1.mem = s.mem ∧ (cmdArm s).1.ctl = s.ctl ∧
    (cmdArm s).1.port = s.port ∧ (cmdArm s).1.cause = s.cause ∧
    (cmdArm s).1.pins = s.pins ∧ (cmdArm s).1.refPhase = s.refPhase ∧
    (cmdArm s).1.freeIndex = s.freeIndex ∧ (cmdArm s).1.pending = s.pending := by
  simp only [cmdArm]
  (repeat' split) <;> simp

@[simp] theorem cmdCancel_keeps (s : State) :
    (cmdCancel s).1.power = s.power ∧ (cmdCancel s).1.hs = s.hs ∧
    (cmdCancel s).1.fe = s.fe ∧ (cmdCancel s).1.rm = s.rm ∧
    (cmdCancel s).1.mem = s.mem ∧ (cmdCancel s).1.rdv = s.rdv ∧
    (cmdCancel s).1.ctl = s.ctl ∧ (cmdCancel s).1.port = s.port ∧
    (cmdCancel s).1.cause = s.cause ∧ (cmdCancel s).1.pins = s.pins ∧
    (cmdCancel s).1.refPhase = s.refPhase ∧ (cmdCancel s).1.freeIndex = s.freeIndex ∧
    (cmdCancel s).1.pending = s.pending := by
  simp only [cmdCancel]
  (repeat' split) <;> simp

@[simp] theorem cmdOutcome_keeps (s : State) :
    (cmdOutcome s).1.power = s.power ∧ (cmdOutcome s).1.line = s.line ∧
    (cmdOutcome s).1.hs = s.hs ∧ (cmdOutcome s).1.arb = s.arb ∧
    (cmdOutcome s).1.fe = s.fe ∧ (cmdOutcome s).1.tm = s.tm ∧
    (cmdOutcome s).1.rm = s.rm ∧ (cmdOutcome s).1.mem = s.mem ∧
    (cmdOutcome s).1.ctl = s.ctl ∧ (cmdOutcome s).1.port = s.port ∧
    (cmdOutcome s).1.cause = s.cause ∧ (cmdOutcome s).1.pins = s.pins ∧
    (cmdOutcome s).1.refPhase = s.refPhase ∧ (cmdOutcome s).1.freeIndex = s.freeIndex ∧
    (cmdOutcome s).1.pending = s.pending := by
  simp only [cmdOutcome]
  (repeat' split) <;> simp

@[simp] theorem outcomeRead_keeps (s : State) :
    (outcomeRead s).power = s.power ∧ (outcomeRead s).line = s.line ∧
    (outcomeRead s).hs = s.hs ∧ (outcomeRead s).arb = s.arb ∧
    (outcomeRead s).fe = s.fe ∧ (outcomeRead s).tm = s.tm ∧
    (outcomeRead s).rm = s.rm ∧ (outcomeRead s).mem = s.mem ∧
    (outcomeRead s).ctl = s.ctl ∧ (outcomeRead s).port = s.port ∧
    (outcomeRead s).cause = s.cause ∧ (outcomeRead s).pins = s.pins ∧
    (outcomeRead s).refPhase = s.refPhase ∧ (outcomeRead s).freeIndex = s.freeIndex ∧
    (outcomeRead s).pending = s.pending := by
  simp only [outcomeRead]
  (repeat' split) <;> simp

@[simp] theorem armPinEdge_keeps (s : State) :
    (armPinEdge s).power = s.power ∧ (armPinEdge s).hs = s.hs ∧
    (armPinEdge s).arb = s.arb ∧ (armPinEdge s).fe = s.fe ∧
    (armPinEdge s).tm = s.tm ∧ (armPinEdge s).rm = s.rm ∧
    (armPinEdge s).mem = s.mem ∧ (armPinEdge s).ctl = s.ctl ∧
    (armPinEdge s).port = s.port ∧ (armPinEdge s).cause = s.cause ∧
    (armPinEdge s).pins = s.pins ∧ (armPinEdge s).refPhase = s.refPhase ∧
    (armPinEdge s).freeIndex = s.freeIndex ∧ (armPinEdge s).pending = s.pending := by
  simp only [armPinEdge]
  (repeat' split) <;> simp

@[simp] theorem trgReleaseSensed_keeps (s : State) :
    (trgReleaseSensed s).power = s.power ∧ (trgReleaseSensed s).hs = s.hs ∧
    (trgReleaseSensed s).arb = s.arb ∧ (trgReleaseSensed s).fe = s.fe ∧
    (trgReleaseSensed s).tm = s.tm ∧ (trgReleaseSensed s).rm = s.rm ∧
    (trgReleaseSensed s).mem = s.mem ∧ (trgReleaseSensed s).ctl = s.ctl ∧
    (trgReleaseSensed s).port = s.port ∧ (trgReleaseSensed s).cause = s.cause ∧
    (trgReleaseSensed s).pins = s.pins ∧ (trgReleaseSensed s).refPhase = s.refPhase ∧
    (trgReleaseSensed s).freeIndex = s.freeIndex ∧ (trgReleaseSensed s).pending = s.pending := by
  simp only [trgReleaseSensed]
  (repeat' split) <;> simp

@[simp] theorem fireDelayEnd_keeps (s : State) :
    (fireDelayEnd s).power = s.power ∧ (fireDelayEnd s).hs = s.hs ∧
    (fireDelayEnd s).arb = s.arb ∧ (fireDelayEnd s).fe = s.fe ∧
    (fireDelayEnd s).rm = s.rm ∧ (fireDelayEnd s).mem = s.mem ∧
    (fireDelayEnd s).ctl = s.ctl ∧ (fireDelayEnd s).port = s.port ∧
    (fireDelayEnd s).pins = s.pins ∧ (fireDelayEnd s).refPhase = s.refPhase ∧
    (fireDelayEnd s).freeIndex = s.freeIndex ∧ (fireDelayEnd s).pending = s.pending := by
  simp only [fireDelayEnd]
  (repeat' split) <;> simp

@[simp] theorem firePulseEnd_keeps (s : State) :
    (firePulseEnd s).power = s.power ∧ (firePulseEnd s).line = s.line ∧
    (firePulseEnd s).hs = s.hs ∧ (firePulseEnd s).arb = s.arb ∧
    (firePulseEnd s).fe = s.fe ∧ (firePulseEnd s).tm = s.tm ∧
    (firePulseEnd s).rm = s.rm ∧ (firePulseEnd s).mem = s.mem ∧
    (firePulseEnd s).ctl = s.ctl ∧ (firePulseEnd s).port = s.port ∧
    (firePulseEnd s).cause = s.cause ∧ (firePulseEnd s).pins = s.pins ∧
    (firePulseEnd s).refPhase = s.refPhase ∧ (firePulseEnd s).freeIndex = s.freeIndex ∧
    (firePulseEnd s).pending = s.pending := by
  simp only [firePulseEnd]
  split <;> simp

@[simp] theorem deadlineExpiry_keeps (s : State) :
    (deadlineExpiry s).power = s.power ∧ (deadlineExpiry s).hs = s.hs ∧
    (deadlineExpiry s).fe = s.fe ∧ (deadlineExpiry s).rm = s.rm ∧
    (deadlineExpiry s).mem = s.mem ∧ (deadlineExpiry s).ctl = s.ctl ∧
    (deadlineExpiry s).port = s.port ∧ (deadlineExpiry s).cause = s.cause ∧
    (deadlineExpiry s).pins = s.pins ∧ (deadlineExpiry s).refPhase = s.refPhase ∧
    (deadlineExpiry s).freeIndex = s.freeIndex ∧ (deadlineExpiry s).pending = s.pending := by
  simp only [deadlineExpiry]
  (repeat' split) <;> simp

@[simp] theorem holdFire_keeps (s : State) :
    (holdFire s).power = s.power ∧ (holdFire s).line = s.line ∧
    (holdFire s).hs = s.hs ∧ (holdFire s).arb = s.arb ∧
    (holdFire s).fe = s.fe ∧ (holdFire s).tm = s.tm ∧
    (holdFire s).rm = s.rm ∧ (holdFire s).mem = s.mem ∧
    (holdFire s).ctl = s.ctl ∧ (holdFire s).port = s.port ∧
    (holdFire s).cause = s.cause ∧ (holdFire s).pins = s.pins ∧
    (holdFire s).refPhase = s.refPhase ∧ (holdFire s).freeIndex = s.freeIndex ∧
    (holdFire s).pending = s.pending := by
  simp only [holdFire]
  (repeat' split) <;> simp

@[simp] theorem closingSet_keeps (s : State) :
    (closingSet s).power = s.power ∧ (closingSet s).line = s.line ∧
    (closingSet s).hs = s.hs ∧ (closingSet s).arb = s.arb ∧
    (closingSet s).fe = s.fe ∧ (closingSet s).rm = s.rm ∧
    (closingSet s).mem = s.mem ∧ (closingSet s).ctl = s.ctl ∧
    (closingSet s).port = s.port ∧ (closingSet s).cause = s.cause ∧
    (closingSet s).pins = s.pins ∧ (closingSet s).refPhase = s.refPhase ∧
    (closingSet s).freeIndex = s.freeIndex ∧ (closingSet s).pending = s.pending := by
  simp only [closingSet]
  (repeat' split) <;> simp

@[simp] theorem breakReleasedAtView_keeps (s : State) :
    (breakReleasedAtView s).power = s.power ∧ (breakReleasedAtView s).hs = s.hs ∧
    (breakReleasedAtView s).arb = s.arb ∧ (breakReleasedAtView s).fe = s.fe ∧
    (breakReleasedAtView s).rm = s.rm ∧ (breakReleasedAtView s).mem = s.mem ∧
    (breakReleasedAtView s).ctl = s.ctl ∧ (breakReleasedAtView s).port = s.port ∧
    (breakReleasedAtView s).pins = s.pins ∧ (breakReleasedAtView s).refPhase = s.refPhase ∧
    (breakReleasedAtView s).freeIndex = s.freeIndex ∧ (breakReleasedAtView s).pending = s.pending := by
  simp only [breakReleasedAtView]
  (repeat' split) <;> simp

@[simp] theorem viewLeavesBus_keeps (s : State) :
    (viewLeavesBus s).power = s.power ∧ (viewLeavesBus s).hs = s.hs ∧
    (viewLeavesBus s).arb = s.arb ∧ (viewLeavesBus s).fe = s.fe ∧
    (viewLeavesBus s).rm = s.rm ∧ (viewLeavesBus s).mem = s.mem ∧
    (viewLeavesBus s).ctl = s.ctl ∧ (viewLeavesBus s).port = s.port ∧
    (viewLeavesBus s).pins = s.pins ∧ (viewLeavesBus s).refPhase = s.refPhase ∧
    (viewLeavesBus s).freeIndex = s.freeIndex ∧ (viewLeavesBus s).pending = s.pending := by
  simp only [viewLeavesBus]
  (repeat' split) <;> simp

@[simp] theorem observeAtJoin_keeps (s : State) :
    (observeAtJoin s).power = s.power ∧ (observeAtJoin s).line = s.line ∧
    (observeAtJoin s).hs = s.hs ∧ (observeAtJoin s).arb = s.arb ∧
    (observeAtJoin s).fe = s.fe ∧ (observeAtJoin s).tm = s.tm ∧
    (observeAtJoin s).rm = s.rm ∧ (observeAtJoin s).mem = s.mem ∧
    (observeAtJoin s).ctl = s.ctl ∧ (observeAtJoin s).port = s.port ∧
    (observeAtJoin s).cause = s.cause ∧ (observeAtJoin s).pins = s.pins ∧
    (observeAtJoin s).refPhase = s.refPhase ∧ (observeAtJoin s).freeIndex = s.freeIndex ∧
    (observeAtJoin s).pending = s.pending := by
  simp only [observeAtJoin]
  (repeat' split) <;> simp

@[simp] theorem reserveSlot_keeps (s : State) :
    (reserveSlot s).power = s.power ∧ (reserveSlot s).line = s.line ∧
    (reserveSlot s).hs = s.hs ∧ (reserveSlot s).arb = s.arb ∧
    (reserveSlot s).fe = s.fe ∧ (reserveSlot s).tm = s.tm ∧
    (reserveSlot s).mem = s.mem ∧ (reserveSlot s).rdv = s.rdv ∧
    (reserveSlot s).ctl = s.ctl ∧ (reserveSlot s).port = s.port ∧
    (reserveSlot s).cause = s.cause ∧ (reserveSlot s).pins = s.pins ∧
    (reserveSlot s).refPhase = s.refPhase ∧ (reserveSlot s).freeIndex = s.freeIndex ∧
    (reserveSlot s).pending = s.pending := by
  simp only [reserveSlot]
  simp

@[simp] theorem requestSlot_keeps (s : State) :
    (requestSlot s).power = s.power ∧ (requestSlot s).line = s.line ∧
    (requestSlot s).hs = s.hs ∧ (requestSlot s).arb = s.arb ∧
    (requestSlot s).fe = s.fe ∧ (requestSlot s).tm = s.tm ∧
    (requestSlot s).mem = s.mem ∧ (requestSlot s).rdv = s.rdv ∧
    (requestSlot s).ctl = s.ctl ∧ (requestSlot s).port = s.port ∧
    (requestSlot s).cause = s.cause ∧ (requestSlot s).pins = s.pins ∧
    (requestSlot s).refPhase = s.refPhase ∧ (requestSlot s).freeIndex = s.freeIndex ∧
    (requestSlot s).pending = s.pending := by
  simp only [requestSlot]
  (repeat' split) <;> simp

@[simp] theorem putCopy_keeps (value : Byte) (c : Construction) (s : State) :
    (putCopy value c s).power = s.power ∧ (putCopy value c s).line = s.line ∧
    (putCopy value c s).hs = s.hs ∧ (putCopy value c s).arb = s.arb ∧
    (putCopy value c s).fe = s.fe ∧ (putCopy value c s).tm = s.tm ∧
    (putCopy value c s).rdv = s.rdv ∧ (putCopy value c s).ctl = s.ctl ∧
    (putCopy value c s).port = s.port ∧ (putCopy value c s).cause = s.cause ∧
    (putCopy value c s).pins = s.pins ∧ (putCopy value c s).refPhase = s.refPhase ∧
    (putCopy value c s).freeIndex = s.freeIndex ∧ (putCopy value c s).pending = s.pending := by
  simp only [putCopy]
  simp

@[simp] theorem requestRefused_keeps (value : Byte) (unstored : Nat) (last : Bool) (c : Construction) (s : State) :
    (requestRefused value unstored last c s).power = s.power ∧ (requestRefused value unstored last c s).line = s.line ∧
    (requestRefused value unstored last c s).hs = s.hs ∧ (requestRefused value unstored last c s).arb = s.arb ∧
    (requestRefused value unstored last c s).fe = s.fe ∧ (requestRefused value unstored last c s).tm = s.tm ∧
    (requestRefused value unstored last c s).mem = s.mem ∧ (requestRefused value unstored last c s).rdv = s.rdv ∧
    (requestRefused value unstored last c s).ctl = s.ctl ∧ (requestRefused value unstored last c s).port = s.port ∧
    (requestRefused value unstored last c s).cause = s.cause ∧ (requestRefused value unstored last c s).pins = s.pins ∧
    (requestRefused value unstored last c s).refPhase = s.refPhase ∧ (requestRefused value unstored last c s).freeIndex = s.freeIndex ∧
    (requestRefused value unstored last c s).pending = s.pending := by
  simp only [requestRefused]
  (repeat' split) <;> simp

@[simp] theorem storeCopies_keeps (value : Byte) (last : Bool) (n : Nat) (s : State) :
    (storeCopies value last n s).power = s.power ∧ (storeCopies value last n s).line = s.line ∧
    (storeCopies value last n s).hs = s.hs ∧ (storeCopies value last n s).arb = s.arb ∧
    (storeCopies value last n s).fe = s.fe ∧ (storeCopies value last n s).tm = s.tm ∧
    (storeCopies value last n s).rdv = s.rdv ∧ (storeCopies value last n s).ctl = s.ctl ∧
    (storeCopies value last n s).port = s.port ∧ (storeCopies value last n s).cause = s.cause ∧
    (storeCopies value last n s).pins = s.pins ∧ (storeCopies value last n s).refPhase = s.refPhase ∧
    (storeCopies value last n s).freeIndex = s.freeIndex ∧ (storeCopies value last n s).pending = s.pending := by
  induction n generalizing s with
  | zero => simp [storeCopies]
  | succ n ih =>
    simp only [storeCopies]
    (repeat' split) <;> simp [ih]

@[simp] theorem countFull_keeps (n : Nat) (s : State) :
    (countFull n s).power = s.power ∧ (countFull n s).line = s.line ∧
    (countFull n s).hs = s.hs ∧ (countFull n s).arb = s.arb ∧
    (countFull n s).fe = s.fe ∧ (countFull n s).tm = s.tm ∧
    (countFull n s).mem = s.mem ∧ (countFull n s).rdv = s.rdv ∧
    (countFull n s).ctl = s.ctl ∧ (countFull n s).port = s.port ∧
    (countFull n s).cause = s.cause ∧ (countFull n s).pins = s.pins ∧
    (countFull n s).refPhase = s.refPhase ∧ (countFull n s).freeIndex = s.freeIndex ∧
    (countFull n s).pending = s.pending := by
  simp only [countFull]
  simp

@[simp] theorem receiveCopies_keeps (value : Byte) (n : Nat) (last : Bool) (s : State) :
    (receiveCopies value n last s).power = s.power ∧ (receiveCopies value n last s).line = s.line ∧
    (receiveCopies value n last s).hs = s.hs ∧ (receiveCopies value n last s).arb = s.arb ∧
    (receiveCopies value n last s).fe = s.fe ∧ (receiveCopies value n last s).tm = s.tm ∧
    (receiveCopies value n last s).rdv = s.rdv ∧ (receiveCopies value n last s).ctl = s.ctl ∧
    (receiveCopies value n last s).port = s.port ∧ (receiveCopies value n last s).cause = s.cause ∧
    (receiveCopies value n last s).pins = s.pins ∧ (receiveCopies value n last s).refPhase = s.refPhase ∧
    (receiveCopies value n last s).freeIndex = s.freeIndex ∧ (receiveCopies value n last s).pending = s.pending := by
  simp only [receiveCopies]
  (repeat' split) <;> simp

@[simp] theorem receiveMalformed_keeps (s : State) :
    (receiveMalformed s).power = s.power ∧ (receiveMalformed s).line = s.line ∧
    (receiveMalformed s).hs = s.hs ∧ (receiveMalformed s).arb = s.arb ∧
    (receiveMalformed s).fe = s.fe ∧ (receiveMalformed s).tm = s.tm ∧
    (receiveMalformed s).mem = s.mem ∧ (receiveMalformed s).rdv = s.rdv ∧
    (receiveMalformed s).ctl = s.ctl ∧ (receiveMalformed s).port = s.port ∧
    (receiveMalformed s).cause = s.cause ∧ (receiveMalformed s).pins = s.pins ∧
    (receiveMalformed s).refPhase = s.refPhase ∧ (receiveMalformed s).freeIndex = s.freeIndex ∧
    (receiveMalformed s).pending = s.pending := by
  simp only [receiveMalformed]
  (repeat' split) <;> simp

@[simp] theorem renewRequest_keeps (s : State) :
    (renewRequest s).power = s.power ∧ (renewRequest s).line = s.line ∧
    (renewRequest s).hs = s.hs ∧ (renewRequest s).arb = s.arb ∧
    (renewRequest s).fe = s.fe ∧ (renewRequest s).tm = s.tm ∧
    (renewRequest s).rdv = s.rdv ∧ (renewRequest s).ctl = s.ctl ∧
    (renewRequest s).port = s.port ∧ (renewRequest s).cause = s.cause ∧
    (renewRequest s).pins = s.pins ∧ (renewRequest s).refPhase = s.refPhase ∧
    (renewRequest s).freeIndex = s.freeIndex ∧ (renewRequest s).pending = s.pending := by
  simp only [renewRequest]
  (repeat' split) <;> simp

@[simp] theorem receptionIdle_keeps (s : State) :
    (receptionIdle s).power = s.power ∧ (receptionIdle s).line = s.line ∧
    (receptionIdle s).hs = s.hs ∧ (receptionIdle s).arb = s.arb ∧
    (receptionIdle s).fe = s.fe ∧ (receptionIdle s).tm = s.tm ∧
    (receptionIdle s).mem = s.mem ∧ (receptionIdle s).rdv = s.rdv ∧
    (receptionIdle s).ctl = s.ctl ∧ (receptionIdle s).port = s.port ∧
    (receptionIdle s).cause = s.cause ∧ (receptionIdle s).pins = s.pins ∧
    (receptionIdle s).refPhase = s.refPhase ∧ (receptionIdle s).freeIndex = s.freeIndex ∧
    (receptionIdle s).pending = s.pending := by
  simp only [receptionIdle]
  simp

@[simp] theorem joinRecord_keeps (source address : Byte) (status : RecordStatus) (fullLength keptLength : Nat) (blocks : List Nat) (s : State) :
    (joinRecord source address status fullLength keptLength blocks s).power = s.power ∧ (joinRecord source address status fullLength keptLength blocks s).line = s.line ∧
    (joinRecord source address status fullLength keptLength blocks s).hs = s.hs ∧ (joinRecord source address status fullLength keptLength blocks s).arb = s.arb ∧
    (joinRecord source address status fullLength keptLength blocks s).fe = s.fe ∧ (joinRecord source address status fullLength keptLength blocks s).tm = s.tm ∧
    (joinRecord source address status fullLength keptLength blocks s).mem = s.mem ∧ (joinRecord source address status fullLength keptLength blocks s).rdv = s.rdv ∧
    (joinRecord source address status fullLength keptLength blocks s).ctl = s.ctl ∧ (joinRecord source address status fullLength keptLength blocks s).port = s.port ∧
    (joinRecord source address status fullLength keptLength blocks s).cause = s.cause ∧ (joinRecord source address status fullLength keptLength blocks s).pins = s.pins ∧
    (joinRecord source address status fullLength keptLength blocks s).refPhase = s.refPhase ∧ (joinRecord source address status fullLength keptLength blocks s).freeIndex = s.freeIndex ∧
    (joinRecord source address status fullLength keptLength blocks s).pending = s.pending := by
  simp only [joinRecord]
  simp

@[simp] theorem receptionAbandonment_keeps (s : State) :
    (receptionAbandonment s).power = s.power ∧ (receptionAbandonment s).line = s.line ∧
    (receptionAbandonment s).hs = s.hs ∧ (receptionAbandonment s).arb = s.arb ∧
    (receptionAbandonment s).fe = s.fe ∧ (receptionAbandonment s).tm = s.tm ∧
    (receptionAbandonment s).rdv = s.rdv ∧ (receptionAbandonment s).ctl = s.ctl ∧
    (receptionAbandonment s).port = s.port ∧ (receptionAbandonment s).cause = s.cause ∧
    (receptionAbandonment s).pins = s.pins ∧ (receptionAbandonment s).refPhase = s.refPhase ∧
    (receptionAbandonment s).freeIndex = s.freeIndex ∧ (receptionAbandonment s).pending = s.pending := by
  simp only [receptionAbandonment]
  simp

@[simp] theorem receptionCompletion_keeps (f : FrameState) (s : State) :
    (receptionCompletion f s).power = s.power ∧ (receptionCompletion f s).line = s.line ∧
    (receptionCompletion f s).hs = s.hs ∧ (receptionCompletion f s).arb = s.arb ∧
    (receptionCompletion f s).fe = s.fe ∧ (receptionCompletion f s).tm = s.tm ∧
    (receptionCompletion f s).rdv = s.rdv ∧ (receptionCompletion f s).ctl = s.ctl ∧
    (receptionCompletion f s).port = s.port ∧ (receptionCompletion f s).pins = s.pins ∧
    (receptionCompletion f s).refPhase = s.refPhase ∧ (receptionCompletion f s).freeIndex = s.freeIndex ∧
    (receptionCompletion f s).pending = s.pending := by
  simp only [receptionCompletion]
  (repeat' split) <;> simp

@[simp] theorem cmdFetch_keeps (s : State) :
    (cmdFetch s).1.power = s.power ∧ (cmdFetch s).1.line = s.line ∧
    (cmdFetch s).1.hs = s.hs ∧ (cmdFetch s).1.arb = s.arb ∧
    (cmdFetch s).1.fe = s.fe ∧ (cmdFetch s).1.tm = s.tm ∧
    (cmdFetch s).1.rm = s.rm ∧ (cmdFetch s).1.mem = s.mem ∧
    (cmdFetch s).1.rdv = s.rdv ∧ (cmdFetch s).1.ctl = s.ctl ∧
    (cmdFetch s).1.port = s.port ∧ (cmdFetch s).1.cause = s.cause ∧
    (cmdFetch s).1.pins = s.pins ∧ (cmdFetch s).1.refPhase = s.refPhase ∧
    (cmdFetch s).1.freeIndex = s.freeIndex ∧ (cmdFetch s).1.pending = s.pending := by
  simp only [cmdFetch]
  (repeat' split) <;> simp

@[simp] theorem reevaluateAged_keeps (s : State) :
    (reevaluateAged s).power = s.power ∧ (reevaluateAged s).line = s.line ∧
    (reevaluateAged s).hs = s.hs ∧ (reevaluateAged s).arb = s.arb ∧
    (reevaluateAged s).fe = s.fe ∧ (reevaluateAged s).tm = s.tm ∧
    (reevaluateAged s).mem = s.mem ∧ (reevaluateAged s).rdv = s.rdv ∧
    (reevaluateAged s).ctl = s.ctl ∧ (reevaluateAged s).port = s.port ∧
    (reevaluateAged s).cause = s.cause ∧ (reevaluateAged s).pins = s.pins ∧
    (reevaluateAged s).refPhase = s.refPhase ∧ (reevaluateAged s).freeIndex = s.freeIndex ∧
    (reevaluateAged s).pending = s.pending := by
  simp only [reevaluateAged]
  simp

@[simp] theorem agedFlagSet_keeps (place : Nat) (s : State) :
    (agedFlagSet place s).power = s.power ∧ (agedFlagSet place s).line = s.line ∧
    (agedFlagSet place s).hs = s.hs ∧ (agedFlagSet place s).arb = s.arb ∧
    (agedFlagSet place s).fe = s.fe ∧ (agedFlagSet place s).tm = s.tm ∧
    (agedFlagSet place s).mem = s.mem ∧ (agedFlagSet place s).rdv = s.rdv ∧
    (agedFlagSet place s).ctl = s.ctl ∧ (agedFlagSet place s).port = s.port ∧
    (agedFlagSet place s).cause = s.cause ∧ (agedFlagSet place s).pins = s.pins ∧
    (agedFlagSet place s).refPhase = s.refPhase ∧ (agedFlagSet place s).freeIndex = s.freeIndex ∧
    (agedFlagSet place s).pending = s.pending := by
  simp only [agedFlagSet]
  (repeat' split) <;> simp

@[simp] theorem parseNext_keeps (b : BusByte) (s : State) :
    (parseNext b s).1.power = s.power ∧ (parseNext b s).1.line = s.line ∧
    (parseNext b s).1.hs = s.hs ∧ (parseNext b s).1.arb = s.arb ∧
    (parseNext b s).1.tm = s.tm ∧ (parseNext b s).1.rm = s.rm ∧
    (parseNext b s).1.mem = s.mem ∧ (parseNext b s).1.rdv = s.rdv ∧
    (parseNext b s).1.ctl = s.ctl ∧ (parseNext b s).1.port = s.port ∧
    (parseNext b s).1.cause = s.cause ∧ (parseNext b s).1.pins = s.pins ∧
    (parseNext b s).1.refPhase = s.refPhase ∧ (parseNext b s).1.freeIndex = s.freeIndex ∧
    (parseNext b s).1.pending = s.pending := by
  simp only [parseNext]
  simp

@[simp] theorem handTaken_keeps (e : FrameEvent) (s : State) :
    (handTaken e s).power = s.power ∧ (handTaken e s).hs = s.hs ∧
    (handTaken e s).arb = s.arb ∧ (handTaken e s).fe = s.fe ∧
    (handTaken e s).tm = s.tm ∧ (handTaken e s).ctl = s.ctl ∧
    (handTaken e s).port = s.port ∧ (handTaken e s).cause = s.cause ∧
    (handTaken e s).pins = s.pins ∧ (handTaken e s).refPhase = s.refPhase ∧
    (handTaken e s).freeIndex = s.freeIndex ∧ (handTaken e s).pending = s.pending := by
  simp only [handTaken]
  (repeat' split) <;> simp

@[simp] theorem handObserved_keeps (e : FrameEvent) (s : State) :
    (handObserved e s).power = s.power ∧ (handObserved e s).hs = s.hs ∧
    (handObserved e s).arb = s.arb ∧ (handObserved e s).fe = s.fe ∧
    (handObserved e s).tm = s.tm ∧ (handObserved e s).rm = s.rm ∧
    (handObserved e s).mem = s.mem ∧ (handObserved e s).ctl = s.ctl ∧
    (handObserved e s).port = s.port ∧ (handObserved e s).cause = s.cause ∧
    (handObserved e s).pins = s.pins ∧ (handObserved e s).refPhase = s.refPhase ∧
    (handObserved e s).freeIndex = s.freeIndex ∧ (handObserved e s).pending = s.pending := by
  simp only [handObserved]
  (repeat' split) <;> simp

@[simp] theorem sampleOffer_keeps (b : BusByte) (s : State) :
    (sampleOffer b s).power = s.power ∧ (sampleOffer b s).arb = s.arb ∧
    (sampleOffer b s).fe = s.fe ∧ (sampleOffer b s).tm = s.tm ∧
    (sampleOffer b s).rm = s.rm ∧ (sampleOffer b s).mem = s.mem ∧
    (sampleOffer b s).rdv = s.rdv ∧ (sampleOffer b s).ctl = s.ctl ∧
    (sampleOffer b s).port = s.port ∧ (sampleOffer b s).cause = s.cause ∧
    (sampleOffer b s).pins = s.pins ∧ (sampleOffer b s).refPhase = s.refPhase ∧
    (sampleOffer b s).freeIndex = s.freeIndex ∧ (sampleOffer b s).pending = s.pending := by
  simp only [sampleOffer]
  simp

@[simp] theorem holdDuplicate_keeps (s : State) :
    (holdDuplicate s).power = s.power ∧ (holdDuplicate s).arb = s.arb ∧
    (holdDuplicate s).fe = s.fe ∧ (holdDuplicate s).tm = s.tm ∧
    (holdDuplicate s).rm = s.rm ∧ (holdDuplicate s).mem = s.mem ∧
    (holdDuplicate s).rdv = s.rdv ∧ (holdDuplicate s).ctl = s.ctl ∧
    (holdDuplicate s).port = s.port ∧ (holdDuplicate s).pins = s.pins ∧
    (holdDuplicate s).refPhase = s.refPhase ∧ (holdDuplicate s).freeIndex = s.freeIndex ∧
    (holdDuplicate s).pending = s.pending := by
  simp only [holdDuplicate]
  simp

@[simp] theorem takeByte_keeps (b : BusByte) (s : State) :
    (takeByte b s).power = s.power ∧ (takeByte b s).arb = s.arb ∧
    (takeByte b s).tm = s.tm ∧ (takeByte b s).ctl = s.ctl ∧
    (takeByte b s).port = s.port ∧ (takeByte b s).pins = s.pins ∧
    (takeByte b s).refPhase = s.refPhase ∧ (takeByte b s).freeIndex = s.freeIndex ∧
    (takeByte b s).pending = s.pending := by
  simp only [takeByte]
  (repeat' split) <;> simp

@[simp] theorem take_keeps (b : BusByte) (s : State) :
    (take b s).power = s.power ∧ (take b s).arb = s.arb ∧
    (take b s).tm = s.tm ∧ (take b s).ctl = s.ctl ∧
    (take b s).port = s.port ∧ (take b s).pins = s.pins ∧
    (take b s).refPhase = s.refPhase ∧ (take b s).freeIndex = s.freeIndex ∧
    (take b s).pending = s.pending := by
  simp only [take]
  (repeat' split) <;> simp

@[simp] theorem observe_keeps (b : BusByte) (s : State) :
    (observe b s).power = s.power ∧ (observe b s).arb = s.arb ∧
    (observe b s).tm = s.tm ∧ (observe b s).rm = s.rm ∧
    (observe b s).mem = s.mem ∧ (observe b s).ctl = s.ctl ∧
    (observe b s).port = s.port ∧ (observe b s).cause = s.cause ∧
    (observe b s).pins = s.pins ∧ (observe b s).refPhase = s.refPhase ∧
    (observe b s).freeIndex = s.freeIndex ∧ (observe b s).pending = s.pending := by
  simp only [observe]
  (repeat' split) <;> simp

@[simp] theorem becomeReady_keeps (s : State) :
    (becomeReady s).power = s.power ∧ (becomeReady s).arb = s.arb ∧
    (becomeReady s).tm = s.tm ∧ (becomeReady s).ctl = s.ctl ∧
    (becomeReady s).port = s.port ∧ (becomeReady s).pins = s.pins ∧
    (becomeReady s).refPhase = s.refPhase ∧ (becomeReady s).freeIndex = s.freeIndex ∧
    (becomeReady s).pending = s.pending := by
  simp only [becomeReady]
  (repeat' split) <;> simp

@[simp] theorem freeBlocks_keeps (blocks : List Nat) (s : State) :
    (freeBlocks blocks s).power = s.power ∧ (freeBlocks blocks s).arb = s.arb ∧
    (freeBlocks blocks s).tm = s.tm ∧ (freeBlocks blocks s).ctl = s.ctl ∧
    (freeBlocks blocks s).port = s.port ∧ (freeBlocks blocks s).pins = s.pins ∧
    (freeBlocks blocks s).refPhase = s.refPhase ∧ (freeBlocks blocks s).freeIndex = s.freeIndex ∧
    (freeBlocks blocks s).pending = s.pending := by
  simp only [freeBlocks]
  (repeat' split) <;> simp

@[simp] theorem removeHeadRecord_keeps (s : State) :
    (removeHeadRecord s).power = s.power ∧ (removeHeadRecord s).arb = s.arb ∧
    (removeHeadRecord s).tm = s.tm ∧ (removeHeadRecord s).ctl = s.ctl ∧
    (removeHeadRecord s).port = s.port ∧ (removeHeadRecord s).pins = s.pins ∧
    (removeHeadRecord s).refPhase = s.refPhase ∧ (removeHeadRecord s).freeIndex = s.freeIndex ∧
    (removeHeadRecord s).pending = s.pending := by
  simp only [removeHeadRecord]
  (repeat' split) <;> simp

@[simp] theorem narrow_keeps (s : State) :
    (narrow s).power = s.power ∧ (narrow s).arb = s.arb ∧
    (narrow s).tm = s.tm ∧ (narrow s).ctl = s.ctl ∧
    (narrow s).port = s.port ∧ (narrow s).pins = s.pins ∧
    (narrow s).refPhase = s.refPhase ∧ (narrow s).freeIndex = s.freeIndex ∧
    (narrow s).pending = s.pending := by
  simp only [narrow]
  (repeat' split) <;> simp

@[simp] theorem releaseTaken_keeps (s : State) :
    (releaseTaken s).power = s.power ∧ (releaseTaken s).arb = s.arb ∧
    (releaseTaken s).tm = s.tm ∧ (releaseTaken s).ctl = s.ctl ∧
    (releaseTaken s).port = s.port ∧ (releaseTaken s).pins = s.pins ∧
    (releaseTaken s).refPhase = s.refPhase ∧ (releaseTaken s).freeIndex = s.freeIndex ∧
    (releaseTaken s).pending = s.pending := by
  simp only [releaseTaken]
  (repeat' split) <;> simp

@[simp] theorem handAbandonment_keeps (s : State) :
    (handAbandonment s).power = s.power ∧ (handAbandonment s).hs = s.hs ∧
    (handAbandonment s).fe = s.fe ∧ (handAbandonment s).ctl = s.ctl ∧
    (handAbandonment s).port = s.port ∧ (handAbandonment s).cause = s.cause ∧
    (handAbandonment s).pins = s.pins ∧ (handAbandonment s).refPhase = s.refPhase ∧
    (handAbandonment s).freeIndex = s.freeIndex ∧ (handAbandonment s).pending = s.pending := by
  simp only [handAbandonment]
  (repeat' split) <;> simp

@[simp] theorem endFrameState_keeps (s : State) :
    (endFrameState s).power = s.power ∧ (endFrameState s).line = s.line ∧
    (endFrameState s).arb = s.arb ∧ (endFrameState s).tm = s.tm ∧
    (endFrameState s).rm = s.rm ∧ (endFrameState s).mem = s.mem ∧
    (endFrameState s).rdv = s.rdv ∧ (endFrameState s).ctl = s.ctl ∧
    (endFrameState s).port = s.port ∧ (endFrameState s).cause = s.cause ∧
    (endFrameState s).pins = s.pins ∧ (endFrameState s).refPhase = s.refPhase ∧
    (endFrameState s).freeIndex = s.freeIndex ∧ (endFrameState s).pending = s.pending := by
  simp only [endFrameState]
  simp

@[simp] theorem abandonFrame_keeps (s : State) :
    (abandonFrame s).power = s.power ∧ (abandonFrame s).ctl = s.ctl ∧
    (abandonFrame s).port = s.port ∧ (abandonFrame s).cause = s.cause ∧
    (abandonFrame s).pins = s.pins ∧ (abandonFrame s).refPhase = s.refPhase ∧
    (abandonFrame s).freeIndex = s.freeIndex ∧ (abandonFrame s).pending = s.pending := by
  simp only [abandonFrame]
  (repeat' split) <;> simp

@[simp] theorem lastWithdrawn_keeps (s : State) :
    (lastWithdrawn s).power = s.power ∧ (lastWithdrawn s).ctl = s.ctl ∧
    (lastWithdrawn s).port = s.port ∧ (lastWithdrawn s).cause = s.cause ∧
    (lastWithdrawn s).pins = s.pins ∧ (lastWithdrawn s).refPhase = s.refPhase ∧
    (lastWithdrawn s).freeIndex = s.freeIndex ∧ (lastWithdrawn s).pending = s.pending := by
  simp only [lastWithdrawn]
  (repeat' split) <;> simp

@[simp] theorem offerReleaseSensed_keeps (s : State) :
    (offerReleaseSensed s).power = s.power ∧ (offerReleaseSensed s).ctl = s.ctl ∧
    (offerReleaseSensed s).port = s.port ∧ (offerReleaseSensed s).pins = s.pins ∧
    (offerReleaseSensed s).refPhase = s.refPhase ∧ (offerReleaseSensed s).freeIndex = s.freeIndex ∧
    (offerReleaseSensed s).pending = s.pending := by
  simp only [offerReleaseSensed]
  (repeat' split) <;> simp

@[simp] theorem ownAssertionSensed_keeps (s : State) :
    (ownAssertionSensed s).power = s.power ∧ (ownAssertionSensed s).rm = s.rm ∧
    (ownAssertionSensed s).mem = s.mem ∧ (ownAssertionSensed s).rdv = s.rdv ∧
    (ownAssertionSensed s).ctl = s.ctl ∧ (ownAssertionSensed s).port = s.port ∧
    (ownAssertionSensed s).cause = s.cause ∧ (ownAssertionSensed s).pins = s.pins ∧
    (ownAssertionSensed s).refPhase = s.refPhase ∧ (ownAssertionSensed s).freeIndex = s.freeIndex ∧
    (ownAssertionSensed s).pending = s.pending := by
  simp only [ownAssertionSensed]
  (repeat' split) <;> simp

@[simp] theorem handCompletion_keeps (s : State) :
    (handCompletion s).power = s.power ∧ (handCompletion s).hs = s.hs ∧
    (handCompletion s).fe = s.fe ∧ (handCompletion s).ctl = s.ctl ∧
    (handCompletion s).port = s.port ∧ (handCompletion s).pins = s.pins ∧
    (handCompletion s).refPhase = s.refPhase ∧ (handCompletion s).freeIndex = s.freeIndex ∧
    (handCompletion s).pending = s.pending := by
  simp only [handCompletion]
  (repeat' split) <;> simp

@[simp] theorem completeElsewhere_keeps (s : State) :
    (completeElsewhere s).power = s.power ∧ (completeElsewhere s).ctl = s.ctl ∧
    (completeElsewhere s).port = s.port ∧ (completeElsewhere s).pins = s.pins ∧
    (completeElsewhere s).refPhase = s.refPhase ∧ (completeElsewhere s).freeIndex = s.freeIndex ∧
    (completeElsewhere s).pending = s.pending := by
  simp only [completeElsewhere]
  (repeat' split) <;> simp

@[simp] theorem ownReleased_keeps (s : State) :
    (ownReleased s).power = s.power ∧ (ownReleased s).ctl = s.ctl ∧
    (ownReleased s).port = s.port ∧ (ownReleased s).cause = s.cause ∧
    (ownReleased s).pins = s.pins ∧ (ownReleased s).refPhase = s.refPhase ∧
    (ownReleased s).freeIndex = s.freeIndex ∧ (ownReleased s).pending = s.pending := by
  simp only [ownReleased]
  (repeat' split) <;> simp

@[simp] theorem ownReleaseSensed_keeps (req : Bool) (s : State) :
    (ownReleaseSensed req s).power = s.power ∧ (ownReleaseSensed req s).ctl = s.ctl ∧
    (ownReleaseSensed req s).port = s.port ∧ (ownReleaseSensed req s).cause = s.cause ∧
    (ownReleaseSensed req s).pins = s.pins ∧ (ownReleaseSensed req s).refPhase = s.refPhase ∧
    (ownReleaseSensed req s).freeIndex = s.freeIndex ∧ (ownReleaseSensed req s).pending = s.pending := by
  simp only [ownReleaseSensed]
  (repeat' split) <;> simp

@[simp] theorem busIdleSensed_keeps (s : State) :
    (busIdleSensed s).power = s.power ∧ (busIdleSensed s).ctl = s.ctl ∧
    (busIdleSensed s).port = s.port ∧ (busIdleSensed s).cause = s.cause ∧
    (busIdleSensed s).pins = s.pins ∧ (busIdleSensed s).refPhase = s.refPhase ∧
    (busIdleSensed s).freeIndex = s.freeIndex ∧ (busIdleSensed s).pending = s.pending := by
  simp only [busIdleSensed]
  (repeat' split) <;> simp

@[simp] theorem silenceTimerExpiry_keeps (s : State) :
    (silenceTimerExpiry s).power = s.power ∧ (silenceTimerExpiry s).hs = s.hs ∧
    (silenceTimerExpiry s).arb = s.arb ∧ (silenceTimerExpiry s).fe = s.fe ∧
    (silenceTimerExpiry s).tm = s.tm ∧ (silenceTimerExpiry s).rm = s.rm ∧
    (silenceTimerExpiry s).mem = s.mem ∧ (silenceTimerExpiry s).rdv = s.rdv ∧
    (silenceTimerExpiry s).ctl = s.ctl ∧ (silenceTimerExpiry s).port = s.port ∧
    (silenceTimerExpiry s).cause = s.cause ∧ (silenceTimerExpiry s).pins = s.pins ∧
    (silenceTimerExpiry s).refPhase = s.refPhase ∧ (silenceTimerExpiry s).freeIndex = s.freeIndex ∧
    (silenceTimerExpiry s).pending = s.pending := by
  simp only [silenceTimerExpiry]
  (repeat' split) <;> simp

@[simp] theorem finishDescriptor_keeps (i : Fin 16) (o : TxOutcome) (s : State) :
    (finishDescriptor i o s).power = s.power ∧ (finishDescriptor i o s).arb = s.arb ∧
    (finishDescriptor i o s).ctl = s.ctl ∧ (finishDescriptor i o s).port = s.port ∧
    (finishDescriptor i o s).pins = s.pins ∧ (finishDescriptor i o s).refPhase = s.refPhase ∧
    (finishDescriptor i o s).freeIndex = s.freeIndex ∧ (finishDescriptor i o s).pending = s.pending := by
  simp only [finishDescriptor]
  simp

@[simp] theorem endDescriptorAttempt_keeps (i : Fin 16) (o : TxOutcome) (s : State) :
    (endDescriptorAttempt i o s).power = s.power ∧ (endDescriptorAttempt i o s).arb = s.arb ∧
    (endDescriptorAttempt i o s).ctl = s.ctl ∧ (endDescriptorAttempt i o s).port = s.port ∧
    (endDescriptorAttempt i o s).pins = s.pins ∧ (endDescriptorAttempt i o s).refPhase = s.refPhase ∧
    (endDescriptorAttempt i o s).freeIndex = s.freeIndex ∧ (endDescriptorAttempt i o s).pending = s.pending := by
  simp only [endDescriptorAttempt]
  (repeat' split) <;> simp

@[simp] theorem stationJoined_keeps (s : State) :
    (stationJoined s).power = s.power ∧ (stationJoined s).line = s.line ∧
    (stationJoined s).hs = s.hs ∧ (stationJoined s).arb = s.arb ∧
    (stationJoined s).fe = s.fe ∧ (stationJoined s).tm = s.tm ∧
    (stationJoined s).rm = s.rm ∧ (stationJoined s).mem = s.mem ∧
    (stationJoined s).rdv = s.rdv ∧ (stationJoined s).port = s.port ∧
    (stationJoined s).pins = s.pins ∧ (stationJoined s).refPhase = s.refPhase ∧
    (stationJoined s).freeIndex = s.freeIndex ∧ (stationJoined s).pending = s.pending ∧
    (stationJoined s).ctl.configuration = s.ctl.configuration ∧ (stationJoined s).ctl.number = s.ctl.number ∧
    (stationJoined s).ctl.subscriptions = s.ctl.subscriptions ∧ (stationJoined s).ctl.clock = s.ctl.clock := by
  simp only [stationJoined]
  (repeat' split) <;> simp

@[simp] theorem awaitFault_keeps (reason : StationReason) (s : State) :
    (awaitFault reason s).power = s.power ∧ (awaitFault reason s).line = s.line ∧
    (awaitFault reason s).hs = s.hs ∧ (awaitFault reason s).arb = s.arb ∧
    (awaitFault reason s).fe = s.fe ∧ (awaitFault reason s).tm = s.tm ∧
    (awaitFault reason s).rm = s.rm ∧ (awaitFault reason s).mem = s.mem ∧
    (awaitFault reason s).rdv = s.rdv ∧ (awaitFault reason s).port = s.port ∧
    (awaitFault reason s).cause = s.cause ∧ (awaitFault reason s).pins = s.pins ∧
    (awaitFault reason s).refPhase = s.refPhase ∧ (awaitFault reason s).freeIndex = s.freeIndex ∧
    (awaitFault reason s).pending = s.pending ∧ (awaitFault reason s).ctl.configuration = s.ctl.configuration ∧
    (awaitFault reason s).ctl.number = s.ctl.number ∧ (awaitFault reason s).ctl.subscriptions = s.ctl.subscriptions ∧
    (awaitFault reason s).ctl.clock = s.ctl.clock := by
  simp only [awaitFault]
  (repeat' split) <;> simp

@[simp] theorem endHello_keeps (f : SlotFrame) (o : TxOutcome) (atSource : Bool) (s : State) :
    (endHello f o atSource s).power = s.power ∧ (endHello f o atSource s).line = s.line ∧
    (endHello f o atSource s).hs = s.hs ∧ (endHello f o atSource s).arb = s.arb ∧
    (endHello f o atSource s).fe = s.fe ∧ (endHello f o atSource s).rm = s.rm ∧
    (endHello f o atSource s).mem = s.mem ∧ (endHello f o atSource s).rdv = s.rdv ∧
    (endHello f o atSource s).port = s.port ∧ (endHello f o atSource s).pins = s.pins ∧
    (endHello f o atSource s).refPhase = s.refPhase ∧ (endHello f o atSource s).freeIndex = s.freeIndex ∧
    (endHello f o atSource s).pending = s.pending ∧ (endHello f o atSource s).ctl.configuration = s.ctl.configuration ∧
    (endHello f o atSource s).ctl.number = s.ctl.number ∧ (endHello f o atSource s).ctl.subscriptions = s.ctl.subscriptions ∧
    (endHello f o atSource s).ctl.clock = s.ctl.clock := by
  simp only [endHello]
  (repeat' split) <;> simp

@[simp] theorem endOpen_keeps (f : SlotFrame) (group tag : Byte) (o : TxOutcome) (s : State) :
    (endOpen f group tag o s).power = s.power ∧ (endOpen f group tag o s).line = s.line ∧
    (endOpen f group tag o s).hs = s.hs ∧ (endOpen f group tag o s).arb = s.arb ∧
    (endOpen f group tag o s).fe = s.fe ∧ (endOpen f group tag o s).rm = s.rm ∧
    (endOpen f group tag o s).mem = s.mem ∧ (endOpen f group tag o s).ctl = s.ctl ∧
    (endOpen f group tag o s).port = s.port ∧ (endOpen f group tag o s).pins = s.pins ∧
    (endOpen f group tag o s).refPhase = s.refPhase ∧ (endOpen f group tag o s).freeIndex = s.freeIndex ∧
    (endOpen f group tag o s).pending = s.pending := by
  simp only [endOpen]
  (repeat' split) <;> simp

@[simp] theorem endCancel_keeps (f : SlotFrame) (tag : Byte) (o : TxOutcome) (s : State) :
    (endCancel f tag o s).power = s.power ∧ (endCancel f tag o s).hs = s.hs ∧
    (endCancel f tag o s).arb = s.arb ∧ (endCancel f tag o s).fe = s.fe ∧
    (endCancel f tag o s).rm = s.rm ∧ (endCancel f tag o s).mem = s.mem ∧
    (endCancel f tag o s).ctl = s.ctl ∧ (endCancel f tag o s).port = s.port ∧
    (endCancel f tag o s).pins = s.pins ∧ (endCancel f tag o s).refPhase = s.refPhase ∧
    (endCancel f tag o s).freeIndex = s.freeIndex ∧ (endCancel f tag o s).pending = s.pending := by
  simp only [endCancel]
  (repeat' split) <;> simp

@[simp] theorem endSlotAttempt_keeps (f : SlotFrame) (o : TxOutcome) (atSource : Bool) (s : State) :
    (endSlotAttempt f o atSource s).power = s.power ∧ (endSlotAttempt f o atSource s).hs = s.hs ∧
    (endSlotAttempt f o atSource s).arb = s.arb ∧ (endSlotAttempt f o atSource s).fe = s.fe ∧
    (endSlotAttempt f o atSource s).rm = s.rm ∧ (endSlotAttempt f o atSource s).mem = s.mem ∧
    (endSlotAttempt f o atSource s).port = s.port ∧ (endSlotAttempt f o atSource s).pins = s.pins ∧
    (endSlotAttempt f o atSource s).refPhase = s.refPhase ∧ (endSlotAttempt f o atSource s).freeIndex = s.freeIndex ∧
    (endSlotAttempt f o atSource s).pending = s.pending ∧ (endSlotAttempt f o atSource s).ctl.configuration = s.ctl.configuration ∧
    (endSlotAttempt f o atSource s).ctl.number = s.ctl.number ∧ (endSlotAttempt f o atSource s).ctl.subscriptions = s.ctl.subscriptions ∧
    (endSlotAttempt f o atSource s).ctl.clock = s.ctl.clock := by
  simp only [endSlotAttempt]
  (repeat' split) <;> simp

@[simp] theorem endAttempt_keeps (o : TxOutcome) (atSource : Bool) (s : State) :
    (endAttempt o atSource s).power = s.power ∧ (endAttempt o atSource s).arb = s.arb ∧
    (endAttempt o atSource s).port = s.port ∧ (endAttempt o atSource s).pins = s.pins ∧
    (endAttempt o atSource s).refPhase = s.refPhase ∧ (endAttempt o atSource s).freeIndex = s.freeIndex ∧
    (endAttempt o atSource s).pending = s.pending ∧ (endAttempt o atSource s).ctl.configuration = s.ctl.configuration ∧
    (endAttempt o atSource s).ctl.number = s.ctl.number ∧ (endAttempt o atSource s).ctl.subscriptions = s.ctl.subscriptions ∧
    (endAttempt o atSource s).ctl.clock = s.ctl.clock := by
  simp only [endAttempt]
  (repeat' split) <;> simp

@[simp] theorem releaseByte_keeps (s : State) :
    (releaseByte s).power = s.power ∧ (releaseByte s).hs = s.hs ∧
    (releaseByte s).arb = s.arb ∧ (releaseByte s).fe = s.fe ∧
    (releaseByte s).tm = s.tm ∧ (releaseByte s).rm = s.rm ∧
    (releaseByte s).mem = s.mem ∧ (releaseByte s).rdv = s.rdv ∧
    (releaseByte s).ctl = s.ctl ∧ (releaseByte s).port = s.port ∧
    (releaseByte s).cause = s.cause ∧ (releaseByte s).pins = s.pins ∧
    (releaseByte s).refPhase = s.refPhase ∧ (releaseByte s).freeIndex = s.freeIndex ∧
    (releaseByte s).pending = s.pending := by
  simp only [releaseByte]
  simp

@[simp] theorem handOffered_keeps (e : FrameEvent) (s : State) :
    (handOffered e s).power = s.power ∧ (handOffered e s).hs = s.hs ∧
    (handOffered e s).arb = s.arb ∧ (handOffered e s).fe = s.fe ∧
    (handOffered e s).tm = s.tm ∧ (handOffered e s).rm = s.rm ∧
    (handOffered e s).mem = s.mem ∧ (handOffered e s).ctl = s.ctl ∧
    (handOffered e s).port = s.port ∧ (handOffered e s).cause = s.cause ∧
    (handOffered e s).pins = s.pins ∧ (handOffered e s).refPhase = s.refPhase ∧
    (handOffered e s).freeIndex = s.freeIndex ∧ (handOffered e s).pending = s.pending := by
  simp only [handOffered]
  (repeat' split) <;> simp

@[simp] theorem supplyByte_keeps (b : BusByte) (s : State) :
    (supplyByte b s).power = s.power ∧ (supplyByte b s).hs = s.hs ∧
    (supplyByte b s).arb = s.arb ∧ (supplyByte b s).tm = s.tm ∧
    (supplyByte b s).rm = s.rm ∧ (supplyByte b s).mem = s.mem ∧
    (supplyByte b s).ctl = s.ctl ∧ (supplyByte b s).port = s.port ∧
    (supplyByte b s).cause = s.cause ∧ (supplyByte b s).pins = s.pins ∧
    (supplyByte b s).refPhase = s.refPhase ∧ (supplyByte b s).freeIndex = s.freeIndex ∧
    (supplyByte b s).pending = s.pending := by
  simp [supplyByte]

@[simp] theorem talkerReadySensed_keeps (s : State) :
    (talkerReadySensed s).power = s.power ∧ (talkerReadySensed s).arb = s.arb ∧
    (talkerReadySensed s).tm = s.tm ∧ (talkerReadySensed s).rm = s.rm ∧
    (talkerReadySensed s).mem = s.mem ∧ (talkerReadySensed s).ctl = s.ctl ∧
    (talkerReadySensed s).port = s.port ∧ (talkerReadySensed s).cause = s.cause ∧
    (talkerReadySensed s).pins = s.pins ∧ (talkerReadySensed s).refPhase = s.refPhase ∧
    (talkerReadySensed s).freeIndex = s.freeIndex ∧ (talkerReadySensed s).pending = s.pending := by
  simp only [talkerReadySensed]
  (repeat' split) <;> simp

@[simp] theorem offerAssert_keeps (s : State) :
    (offerAssert s).power = s.power ∧ (offerAssert s).arb = s.arb ∧
    (offerAssert s).tm = s.tm ∧ (offerAssert s).rm = s.rm ∧
    (offerAssert s).mem = s.mem ∧ (offerAssert s).rdv = s.rdv ∧
    (offerAssert s).ctl = s.ctl ∧ (offerAssert s).port = s.port ∧
    (offerAssert s).cause = s.cause ∧ (offerAssert s).pins = s.pins ∧
    (offerAssert s).refPhase = s.refPhase ∧ (offerAssert s).freeIndex = s.freeIndex ∧
    (offerAssert s).pending = s.pending := by
  simp only [offerAssert]
  (repeat' split) <;> simp

@[simp] theorem pendReleaseSensed_keeps (s : State) :
    (pendReleaseSensed s).power = s.power ∧ (pendReleaseSensed s).arb = s.arb ∧
    (pendReleaseSensed s).tm = s.tm ∧ (pendReleaseSensed s).rm = s.rm ∧
    (pendReleaseSensed s).mem = s.mem ∧ (pendReleaseSensed s).rdv = s.rdv ∧
    (pendReleaseSensed s).ctl = s.ctl ∧ (pendReleaseSensed s).port = s.port ∧
    (pendReleaseSensed s).cause = s.cause ∧ (pendReleaseSensed s).pins = s.pins ∧
    (pendReleaseSensed s).refPhase = s.refPhase ∧ (pendReleaseSensed s).freeIndex = s.freeIndex ∧
    (pendReleaseSensed s).pending = s.pending := by
  simp only [pendReleaseSensed]
  (repeat' split) <;> simp

@[simp] theorem leaveTalker_keeps (s : State) :
    (leaveTalker s).power = s.power ∧ (leaveTalker s).tm = s.tm ∧
    (leaveTalker s).rm = s.rm ∧ (leaveTalker s).mem = s.mem ∧
    (leaveTalker s).rdv = s.rdv ∧ (leaveTalker s).ctl = s.ctl ∧
    (leaveTalker s).port = s.port ∧ (leaveTalker s).cause = s.cause ∧
    (leaveTalker s).pins = s.pins ∧ (leaveTalker s).refPhase = s.refPhase ∧
    (leaveTalker s).freeIndex = s.freeIndex ∧ (leaveTalker s).pending = s.pending := by
  simp only [leaveTalker]
  simp

@[simp] theorem noListener_keeps (s : State) :
    (noListener s).power = s.power ∧ (noListener s).port = s.port ∧
    (noListener s).pins = s.pins ∧ (noListener s).refPhase = s.refPhase ∧
    (noListener s).freeIndex = s.freeIndex ∧ (noListener s).pending = s.pending ∧
    (noListener s).ctl.configuration = s.ctl.configuration ∧ (noListener s).ctl.number = s.ctl.number ∧
    (noListener s).ctl.subscriptions = s.ctl.subscriptions ∧ (noListener s).ctl.clock = s.ctl.clock := by
  simp only [noListener]
  (repeat' split) <;> simp

@[simp] theorem completeAtTalker_keeps (s : State) :
    (completeAtTalker s).power = s.power ∧ (completeAtTalker s).port = s.port ∧
    (completeAtTalker s).pins = s.pins ∧ (completeAtTalker s).refPhase = s.refPhase ∧
    (completeAtTalker s).freeIndex = s.freeIndex ∧ (completeAtTalker s).pending = s.pending ∧
    (completeAtTalker s).ctl.configuration = s.ctl.configuration ∧ (completeAtTalker s).ctl.number = s.ctl.number ∧
    (completeAtTalker s).ctl.subscriptions = s.ctl.subscriptions ∧ (completeAtTalker s).ctl.clock = s.ctl.clock := by
  simp only [completeAtTalker]
  simp

@[simp] theorem completionWindowEnd_keeps (s : State) :
    (completionWindowEnd s).power = s.power ∧ (completionWindowEnd s).port = s.port ∧
    (completionWindowEnd s).pins = s.pins ∧ (completionWindowEnd s).refPhase = s.refPhase ∧
    (completionWindowEnd s).freeIndex = s.freeIndex ∧ (completionWindowEnd s).pending = s.pending ∧
    (completionWindowEnd s).ctl.configuration = s.ctl.configuration ∧ (completionWindowEnd s).ctl.number = s.ctl.number ∧
    (completionWindowEnd s).ctl.subscriptions = s.ctl.subscriptions ∧ (completionWindowEnd s).ctl.clock = s.ctl.clock := by
  simp only [completionWindowEnd]
  (repeat' split) <;> simp

@[simp] theorem ownHoldEnd_keeps (s : State) :
    (ownHoldEnd s).power = s.power ∧ (ownHoldEnd s).tm = s.tm ∧
    (ownHoldEnd s).rm = s.rm ∧ (ownHoldEnd s).mem = s.mem ∧
    (ownHoldEnd s).rdv = s.rdv ∧ (ownHoldEnd s).ctl = s.ctl ∧
    (ownHoldEnd s).port = s.port ∧ (ownHoldEnd s).cause = s.cause ∧
    (ownHoldEnd s).pins = s.pins ∧ (ownHoldEnd s).refPhase = s.refPhase ∧
    (ownHoldEnd s).freeIndex = s.freeIndex ∧ (ownHoldEnd s).pending = s.pending := by
  simp only [ownHoldEnd]
  (repeat' split) <;> simp

@[simp] theorem stallTimerExpiry_keeps (s : State) :
    (stallTimerExpiry s).power = s.power ∧ (stallTimerExpiry s).arb = s.arb ∧
    (stallTimerExpiry s).fe = s.fe ∧ (stallTimerExpiry s).rm = s.rm ∧
    (stallTimerExpiry s).mem = s.mem ∧ (stallTimerExpiry s).rdv = s.rdv ∧
    (stallTimerExpiry s).ctl = s.ctl ∧ (stallTimerExpiry s).port = s.port ∧
    (stallTimerExpiry s).cause = s.cause ∧ (stallTimerExpiry s).pins = s.pins ∧
    (stallTimerExpiry s).refPhase = s.refPhase ∧ (stallTimerExpiry s).freeIndex = s.freeIndex ∧
    (stallTimerExpiry s).pending = s.pending := by
  simp only [stallTimerExpiry]
  (repeat' split) <;> simp

@[simp] theorem clashFound_keeps (s : State) :
    (clashFound s).power = s.power ∧ (clashFound s).hs = s.hs ∧
    (clashFound s).arb = s.arb ∧ (clashFound s).rm = s.rm ∧
    (clashFound s).mem = s.mem ∧ (clashFound s).rdv = s.rdv ∧
    (clashFound s).port = s.port ∧ (clashFound s).cause = s.cause ∧
    (clashFound s).pins = s.pins ∧ (clashFound s).refPhase = s.refPhase ∧
    (clashFound s).freeIndex = s.freeIndex ∧ (clashFound s).pending = s.pending ∧
    (clashFound s).ctl.configuration = s.ctl.configuration ∧ (clashFound s).ctl.number = s.ctl.number ∧
    (clashFound s).ctl.subscriptions = s.ctl.subscriptions ∧ (clashFound s).ctl.clock = s.ctl.clock := by
  simp only [clashFound]
  simp

@[simp] theorem readbackCompare_keeps (b : BusByte) (s : State) :
    (readbackCompare b s).power = s.power ∧ (readbackCompare b s).hs = s.hs ∧
    (readbackCompare b s).arb = s.arb ∧ (readbackCompare b s).rm = s.rm ∧
    (readbackCompare b s).mem = s.mem ∧ (readbackCompare b s).rdv = s.rdv ∧
    (readbackCompare b s).port = s.port ∧ (readbackCompare b s).cause = s.cause ∧
    (readbackCompare b s).pins = s.pins ∧ (readbackCompare b s).refPhase = s.refPhase ∧
    (readbackCompare b s).freeIndex = s.freeIndex ∧ (readbackCompare b s).pending = s.pending ∧
    (readbackCompare b s).ctl.configuration = s.ctl.configuration ∧ (readbackCompare b s).ctl.number = s.ctl.number ∧
    (readbackCompare b s).ctl.subscriptions = s.ctl.subscriptions ∧ (readbackCompare b s).ctl.clock = s.ctl.clock := by
  simp only [readbackCompare]
  (repeat' split) <;> simp

@[simp] theorem breakTalker_keeps (s : State) :
    (breakTalker s).power = s.power ∧ (breakTalker s).port = s.port ∧
    (breakTalker s).pins = s.pins ∧ (breakTalker s).refPhase = s.refPhase ∧
    (breakTalker s).freeIndex = s.freeIndex ∧ (breakTalker s).pending = s.pending ∧
    (breakTalker s).ctl.configuration = s.ctl.configuration ∧ (breakTalker s).ctl.number = s.ctl.number ∧
    (breakTalker s).ctl.subscriptions = s.ctl.subscriptions ∧ (breakTalker s).ctl.clock = s.ctl.clock := by
  simp only [breakTalker]
  (repeat' split) <;> simp

@[simp] theorem emptySlotAtEntry_keeps (s : State) :
    (emptySlotAtEntry s).power = s.power ∧ (emptySlotAtEntry s).line = s.line ∧
    (emptySlotAtEntry s).hs = s.hs ∧ (emptySlotAtEntry s).arb = s.arb ∧
    (emptySlotAtEntry s).fe = s.fe ∧ (emptySlotAtEntry s).rm = s.rm ∧
    (emptySlotAtEntry s).mem = s.mem ∧ (emptySlotAtEntry s).ctl = s.ctl ∧
    (emptySlotAtEntry s).port = s.port ∧ (emptySlotAtEntry s).pins = s.pins ∧
    (emptySlotAtEntry s).refPhase = s.refPhase ∧ (emptySlotAtEntry s).freeIndex = s.freeIndex ∧
    (emptySlotAtEntry s).pending = s.pending := by
  simp only [emptySlotAtEntry]
  (repeat' split) <;> simp

@[simp] theorem leaveBus_keeps (target : StationState) (reason : StationReason) (s : State) :
    (leaveBus target reason s).power = s.power ∧ (leaveBus target reason s).port = s.port ∧
    (leaveBus target reason s).refPhase = s.refPhase ∧ (leaveBus target reason s).freeIndex = s.freeIndex ∧
    (leaveBus target reason s).pending = s.pending ∧ (leaveBus target reason s).ctl.configuration = s.ctl.configuration ∧
    (leaveBus target reason s).ctl.number = s.ctl.number ∧ (leaveBus target reason s).ctl.subscriptions = s.ctl.subscriptions ∧
    (leaveBus target reason s).ctl.clock = s.ctl.clock := by
  simp only [leaveBus]
  (repeat' split) <;> simp

@[simp] theorem left_keeps (s : State) :
    (left s).power = s.power ∧ (left s).port = s.port ∧
    (left s).refPhase = s.refPhase ∧ (left s).freeIndex = s.freeIndex ∧
    (left s).pending = s.pending ∧ (left s).ctl.configuration = s.ctl.configuration ∧
    (left s).ctl.number = s.ctl.number ∧ (left s).ctl.subscriptions = s.ctl.subscriptions ∧
    (left s).ctl.clock = s.ctl.clock := by
  simp only [left]
  (repeat' split) <;> simp

@[simp] theorem joinAbandoned_keeps (s : State) :
    (joinAbandoned s).power = s.power ∧ (joinAbandoned s).port = s.port ∧
    (joinAbandoned s).refPhase = s.refPhase ∧ (joinAbandoned s).freeIndex = s.freeIndex ∧
    (joinAbandoned s).pending = s.pending ∧ (joinAbandoned s).ctl.configuration = s.ctl.configuration ∧
    (joinAbandoned s).ctl.number = s.ctl.number ∧ (joinAbandoned s).ctl.subscriptions = s.ctl.subscriptions ∧
    (joinAbandoned s).ctl.clock = s.ctl.clock := by
  simp only [joinAbandoned]
  (repeat' split) <;> simp

@[simp] theorem arbiterLeavesOff_keeps (s : State) :
    (arbiterLeavesOff s).power = s.power ∧ (arbiterLeavesOff s).hs = s.hs ∧
    (arbiterLeavesOff s).fe = s.fe ∧ (arbiterLeavesOff s).rm = s.rm ∧
    (arbiterLeavesOff s).mem = s.mem ∧ (arbiterLeavesOff s).rdv = s.rdv ∧
    (arbiterLeavesOff s).ctl = s.ctl ∧ (arbiterLeavesOff s).port = s.port ∧
    (arbiterLeavesOff s).cause = s.cause ∧ (arbiterLeavesOff s).pins = s.pins ∧
    (arbiterLeavesOff s).refPhase = s.refPhase ∧ (arbiterLeavesOff s).freeIndex = s.freeIndex ∧
    (arbiterLeavesOff s).pending = s.pending := by
  simp only [arbiterLeavesOff]
  (repeat' split) <;> simp

@[simp] theorem beginParticipation_keeps (s : State) :
    (beginParticipation s).power = s.power ∧ (beginParticipation s).fe = s.fe ∧
    (beginParticipation s).rm = s.rm ∧ (beginParticipation s).mem = s.mem ∧
    (beginParticipation s).port = s.port ∧ (beginParticipation s).cause = s.cause ∧
    (beginParticipation s).pins = s.pins ∧ (beginParticipation s).refPhase = s.refPhase ∧
    (beginParticipation s).freeIndex = s.freeIndex ∧ (beginParticipation s).pending = s.pending ∧
    (beginParticipation s).ctl.configuration = s.ctl.configuration ∧ (beginParticipation s).ctl.number = s.ctl.number ∧
    (beginParticipation s).ctl.subscriptions = s.ctl.subscriptions ∧ (beginParticipation s).ctl.clock = s.ctl.clock := by
  simp [beginParticipation]

@[simp] theorem cmdJoin_keeps (s : State) :
    (cmdJoin s).1.power = s.power ∧ (cmdJoin s).1.fe = s.fe ∧
    (cmdJoin s).1.rm = s.rm ∧ (cmdJoin s).1.mem = s.mem ∧
    (cmdJoin s).1.port = s.port ∧ (cmdJoin s).1.pins = s.pins ∧
    (cmdJoin s).1.refPhase = s.refPhase ∧ (cmdJoin s).1.freeIndex = s.freeIndex ∧
    (cmdJoin s).1.pending = s.pending ∧ (cmdJoin s).1.ctl.configuration = s.ctl.configuration ∧
    (cmdJoin s).1.ctl.number = s.ctl.number ∧ (cmdJoin s).1.ctl.subscriptions = s.ctl.subscriptions ∧
    (cmdJoin s).1.ctl.clock = s.ctl.clock := by
  simp only [cmdJoin]
  (repeat' split) <;> simp

@[simp] theorem participationBegin_keeps (req trg : Bool) (s : State) :
    (participationBegin req trg s).power = s.power ∧ (participationBegin req trg s).fe = s.fe ∧
    (participationBegin req trg s).rm = s.rm ∧ (participationBegin req trg s).mem = s.mem ∧
    (participationBegin req trg s).port = s.port ∧ (participationBegin req trg s).cause = s.cause ∧
    (participationBegin req trg s).pins = s.pins ∧ (participationBegin req trg s).refPhase = s.refPhase ∧
    (participationBegin req trg s).freeIndex = s.freeIndex ∧ (participationBegin req trg s).pending = s.pending ∧
    (participationBegin req trg s).ctl.configuration = s.ctl.configuration ∧ (participationBegin req trg s).ctl.number = s.ctl.number ∧
    (participationBegin req trg s).ctl.subscriptions = s.ctl.subscriptions ∧ (participationBegin req trg s).ctl.clock = s.ctl.clock := by
  simp only [participationBegin]
  (repeat' split) <;> simp

@[simp] theorem startLeaving_keeps (s : State) :
    (startLeaving s).power = s.power ∧ (startLeaving s).port = s.port ∧
    (startLeaving s).refPhase = s.refPhase ∧ (startLeaving s).freeIndex = s.freeIndex ∧
    (startLeaving s).pending = s.pending ∧ (startLeaving s).ctl.configuration = s.ctl.configuration ∧
    (startLeaving s).ctl.number = s.ctl.number ∧ (startLeaving s).ctl.subscriptions = s.ctl.subscriptions ∧
    (startLeaving s).ctl.clock = s.ctl.clock := by
  simp only [startLeaving]
  simp

@[simp] theorem abandonJoin_keeps (s : State) :
    (abandonJoin s).power = s.power ∧ (abandonJoin s).port = s.port ∧
    (abandonJoin s).refPhase = s.refPhase ∧ (abandonJoin s).freeIndex = s.freeIndex ∧
    (abandonJoin s).pending = s.pending ∧ (abandonJoin s).ctl.configuration = s.ctl.configuration ∧
    (abandonJoin s).ctl.number = s.ctl.number ∧ (abandonJoin s).ctl.subscriptions = s.ctl.subscriptions ∧
    (abandonJoin s).ctl.clock = s.ctl.clock := by
  simp only [abandonJoin]
  (repeat' split) <;> simp

@[simp] theorem cmdLeave_keeps (s : State) :
    (cmdLeave s).1.power = s.power ∧ (cmdLeave s).1.port = s.port ∧
    (cmdLeave s).1.refPhase = s.refPhase ∧ (cmdLeave s).1.freeIndex = s.freeIndex ∧
    (cmdLeave s).1.pending = s.pending ∧ (cmdLeave s).1.ctl.configuration = s.ctl.configuration ∧
    (cmdLeave s).1.ctl.number = s.ctl.number ∧ (cmdLeave s).1.ctl.subscriptions = s.ctl.subscriptions ∧
    (cmdLeave s).1.ctl.clock = s.ctl.clock := by
  simp only [cmdLeave]
  (repeat' split) <;> simp

@[simp] theorem cmdConfigure_keeps (stall silence retry reserve notify age unicast broadcast : Byte) (s : State) :
    (cmdConfigure stall silence retry reserve notify age unicast broadcast s).1.power = s.power ∧ (cmdConfigure stall silence retry reserve notify age unicast broadcast s).1.line = s.line ∧
    (cmdConfigure stall silence retry reserve notify age unicast broadcast s).1.hs = s.hs ∧ (cmdConfigure stall silence retry reserve notify age unicast broadcast s).1.arb = s.arb ∧
    (cmdConfigure stall silence retry reserve notify age unicast broadcast s).1.fe = s.fe ∧ (cmdConfigure stall silence retry reserve notify age unicast broadcast s).1.tm = s.tm ∧
    (cmdConfigure stall silence retry reserve notify age unicast broadcast s).1.mem = s.mem ∧ (cmdConfigure stall silence retry reserve notify age unicast broadcast s).1.rdv = s.rdv ∧
    (cmdConfigure stall silence retry reserve notify age unicast broadcast s).1.port = s.port ∧ (cmdConfigure stall silence retry reserve notify age unicast broadcast s).1.cause = s.cause ∧
    (cmdConfigure stall silence retry reserve notify age unicast broadcast s).1.pins = s.pins ∧ (cmdConfigure stall silence retry reserve notify age unicast broadcast s).1.refPhase = s.refPhase ∧
    (cmdConfigure stall silence retry reserve notify age unicast broadcast s).1.freeIndex = s.freeIndex ∧ (cmdConfigure stall silence retry reserve notify age unicast broadcast s).1.pending = s.pending ∧
    (cmdConfigure stall silence retry reserve notify age unicast broadcast s).1.ctl.number = s.ctl.number ∧ (cmdConfigure stall silence retry reserve notify age unicast broadcast s).1.ctl.clock = s.ctl.clock := by
  simp only [cmdConfigure]
  (repeat' split) <;> simp

@[simp] theorem cmdSetGroup_keeps (group mode : Byte) (s : State) :
    (cmdSetGroup group mode s).1.power = s.power ∧ (cmdSetGroup group mode s).1.line = s.line ∧
    (cmdSetGroup group mode s).1.hs = s.hs ∧ (cmdSetGroup group mode s).1.arb = s.arb ∧
    (cmdSetGroup group mode s).1.fe = s.fe ∧ (cmdSetGroup group mode s).1.tm = s.tm ∧
    (cmdSetGroup group mode s).1.rm = s.rm ∧ (cmdSetGroup group mode s).1.mem = s.mem ∧
    (cmdSetGroup group mode s).1.rdv = s.rdv ∧ (cmdSetGroup group mode s).1.port = s.port ∧
    (cmdSetGroup group mode s).1.cause = s.cause ∧ (cmdSetGroup group mode s).1.pins = s.pins ∧
    (cmdSetGroup group mode s).1.refPhase = s.refPhase ∧ (cmdSetGroup group mode s).1.freeIndex = s.freeIndex ∧
    (cmdSetGroup group mode s).1.pending = s.pending ∧ (cmdSetGroup group mode s).1.ctl.number = s.ctl.number ∧
    (cmdSetGroup group mode s).1.ctl.clock = s.ctl.clock := by
  simp only [cmdSetGroup]
  (repeat' split) <;> simp

@[simp] theorem softResetClearing_keeps (s : State) :
    (softResetClearing s).power = s.power ∧ (softResetClearing s).refPhase = s.refPhase ∧
    (softResetClearing s).freeIndex = s.freeIndex ∧ (softResetClearing s).pending = s.pending ∧
    (softResetClearing s).ctl.configuration = s.ctl.configuration ∧ (softResetClearing s).ctl.number = s.ctl.number ∧
    (softResetClearing s).ctl.subscriptions = s.ctl.subscriptions ∧ (softResetClearing s).ctl.clock = s.ctl.clock := by
  simp only [softResetClearing]
  (repeat' split) <;> simp

@[simp] theorem cmdSoftReset_keeps (s : State) :
    (cmdSoftReset s).1.power = s.power ∧ (cmdSoftReset s).1.refPhase = s.refPhase ∧
    (cmdSoftReset s).1.freeIndex = s.freeIndex ∧ (cmdSoftReset s).1.pending = s.pending ∧
    (cmdSoftReset s).1.ctl.configuration = s.ctl.configuration ∧ (cmdSoftReset s).1.ctl.number = s.ctl.number ∧
    (cmdSoftReset s).1.ctl.subscriptions = s.ctl.subscriptions ∧ (cmdSoftReset s).1.ctl.clock = s.ctl.clock := by
  simp only [cmdSoftReset]
  (repeat' split) <;> simp

@[simp] theorem breakGuardEnd_keeps (s : State) :
    (breakGuardEnd s).power = s.power ∧ (breakGuardEnd s).hs = s.hs ∧
    (breakGuardEnd s).arb = s.arb ∧ (breakGuardEnd s).fe = s.fe ∧
    (breakGuardEnd s).tm = s.tm ∧ (breakGuardEnd s).rm = s.rm ∧
    (breakGuardEnd s).mem = s.mem ∧ (breakGuardEnd s).rdv = s.rdv ∧
    (breakGuardEnd s).ctl = s.ctl ∧ (breakGuardEnd s).port = s.port ∧
    (breakGuardEnd s).cause = s.cause ∧ (breakGuardEnd s).pins = s.pins ∧
    (breakGuardEnd s).refPhase = s.refPhase ∧ (breakGuardEnd s).freeIndex = s.freeIndex ∧
    (breakGuardEnd s).pending = s.pending := by
  simp only [breakGuardEnd]
  (repeat' split) <;> simp

@[simp] theorem clearBreakDelayEnd_keeps (s : State) :
    (clearBreakDelayEnd s).power = s.power ∧ (clearBreakDelayEnd s).hs = s.hs ∧
    (clearBreakDelayEnd s).arb = s.arb ∧ (clearBreakDelayEnd s).fe = s.fe ∧
    (clearBreakDelayEnd s).tm = s.tm ∧ (clearBreakDelayEnd s).rm = s.rm ∧
    (clearBreakDelayEnd s).mem = s.mem ∧ (clearBreakDelayEnd s).rdv = s.rdv ∧
    (clearBreakDelayEnd s).ctl = s.ctl ∧ (clearBreakDelayEnd s).port = s.port ∧
    (clearBreakDelayEnd s).cause = s.cause ∧ (clearBreakDelayEnd s).pins = s.pins ∧
    (clearBreakDelayEnd s).refPhase = s.refPhase ∧ (clearBreakDelayEnd s).freeIndex = s.freeIndex ∧
    (clearBreakDelayEnd s).pending = s.pending := by
  simp only [clearBreakDelayEnd]
  (repeat' split) <;> simp

@[simp] theorem breakPulseEnd_keeps (k : BreakKind) (s : State) :
    (breakPulseEnd k s).power = s.power ∧ (breakPulseEnd k s).hs = s.hs ∧
    (breakPulseEnd k s).arb = s.arb ∧ (breakPulseEnd k s).fe = s.fe ∧
    (breakPulseEnd k s).tm = s.tm ∧ (breakPulseEnd k s).rm = s.rm ∧
    (breakPulseEnd k s).mem = s.mem ∧ (breakPulseEnd k s).rdv = s.rdv ∧
    (breakPulseEnd k s).ctl = s.ctl ∧ (breakPulseEnd k s).port = s.port ∧
    (breakPulseEnd k s).cause = s.cause ∧ (breakPulseEnd k s).pins = s.pins ∧
    (breakPulseEnd k s).refPhase = s.refPhase ∧ (breakPulseEnd k s).freeIndex = s.freeIndex ∧
    (breakPulseEnd k s).pending = s.pending := by
  simp only [breakPulseEnd]
  (repeat' split) <;> simp

@[simp] theorem breakParticipant_keeps (s : State) :
    (breakParticipant s).power = s.power ∧ (breakParticipant s).ctl = s.ctl ∧
    (breakParticipant s).port = s.port ∧ (breakParticipant s).cause = s.cause ∧
    (breakParticipant s).pins = s.pins ∧ (breakParticipant s).refPhase = s.refPhase ∧
    (breakParticipant s).freeIndex = s.freeIndex ∧ (breakParticipant s).pending = s.pending := by
  simp only [breakParticipant]
  simp

@[simp] theorem breakArbiter_keeps (s : State) :
    (breakArbiter s).power = s.power ∧ (breakArbiter s).hs = s.hs ∧
    (breakArbiter s).fe = s.fe ∧ (breakArbiter s).rm = s.rm ∧
    (breakArbiter s).mem = s.mem ∧ (breakArbiter s).rdv = s.rdv ∧
    (breakArbiter s).ctl = s.ctl ∧ (breakArbiter s).port = s.port ∧
    (breakArbiter s).cause = s.cause ∧ (breakArbiter s).pins = s.pins ∧
    (breakArbiter s).refPhase = s.refPhase ∧ (breakArbiter s).freeIndex = s.freeIndex ∧
    (breakArbiter s).pending = s.pending := by
  simp only [breakArbiter]
  (repeat' split) <;> simp

@[simp] theorem breakRole_keeps (s : State) :
    (breakRole s).power = s.power ∧ (breakRole s).port = s.port ∧
    (breakRole s).pins = s.pins ∧ (breakRole s).refPhase = s.refPhase ∧
    (breakRole s).freeIndex = s.freeIndex ∧ (breakRole s).pending = s.pending ∧
    (breakRole s).ctl.configuration = s.ctl.configuration ∧ (breakRole s).ctl.number = s.ctl.number ∧
    (breakRole s).ctl.subscriptions = s.ctl.subscriptions ∧ (breakRole s).ctl.clock = s.ctl.clock := by
  simp only [breakRole]
  (repeat' split) <;> simp

@[simp] theorem breakEdge_keeps (s : State) :
    (breakEdge s).power = s.power ∧ (breakEdge s).port = s.port ∧
    (breakEdge s).pins = s.pins ∧ (breakEdge s).refPhase = s.refPhase ∧
    (breakEdge s).freeIndex = s.freeIndex ∧ (breakEdge s).pending = s.pending ∧
    (breakEdge s).ctl.configuration = s.ctl.configuration ∧ (breakEdge s).ctl.number = s.ctl.number ∧
    (breakEdge s).ctl.subscriptions = s.ctl.subscriptions ∧ (breakEdge s).ctl.clock = s.ctl.clock := by
  simp only [breakEdge]
  (repeat' split) <;> simp

@[simp] theorem clearBreakClassification_keeps (s : State) :
    (clearBreakClassification s).power = s.power ∧ (clearBreakClassification s).hs = s.hs ∧
    (clearBreakClassification s).arb = s.arb ∧ (clearBreakClassification s).fe = s.fe ∧
    (clearBreakClassification s).rm = s.rm ∧ (clearBreakClassification s).mem = s.mem ∧
    (clearBreakClassification s).ctl = s.ctl ∧ (clearBreakClassification s).port = s.port ∧
    (clearBreakClassification s).pins = s.pins ∧ (clearBreakClassification s).refPhase = s.refPhase ∧
    (clearBreakClassification s).freeIndex = s.freeIndex ∧ (clearBreakClassification s).pending = s.pending := by
  simp only [clearBreakClassification]
  (repeat' split) <;> simp

@[simp] theorem classifyAtRelease_keeps (s : State) :
    (classifyAtRelease s).power = s.power ∧ (classifyAtRelease s).hs = s.hs ∧
    (classifyAtRelease s).arb = s.arb ∧ (classifyAtRelease s).fe = s.fe ∧
    (classifyAtRelease s).tm = s.tm ∧ (classifyAtRelease s).rm = s.rm ∧
    (classifyAtRelease s).mem = s.mem ∧ (classifyAtRelease s).rdv = s.rdv ∧
    (classifyAtRelease s).ctl = s.ctl ∧ (classifyAtRelease s).port = s.port ∧
    (classifyAtRelease s).pins = s.pins ∧ (classifyAtRelease s).refPhase = s.refPhase ∧
    (classifyAtRelease s).freeIndex = s.freeIndex ∧ (classifyAtRelease s).pending = s.pending := by
  simp only [classifyAtRelease]
  (repeat' split) <;> simp

@[simp] theorem rejoinAtRelease_keeps (s : State) :
    (rejoinAtRelease s).power = s.power ∧ (rejoinAtRelease s).arb = s.arb ∧
    (rejoinAtRelease s).fe = s.fe ∧ (rejoinAtRelease s).tm = s.tm ∧
    (rejoinAtRelease s).rm = s.rm ∧ (rejoinAtRelease s).mem = s.mem ∧
    (rejoinAtRelease s).rdv = s.rdv ∧ (rejoinAtRelease s).ctl = s.ctl ∧
    (rejoinAtRelease s).port = s.port ∧ (rejoinAtRelease s).cause = s.cause ∧
    (rejoinAtRelease s).pins = s.pins ∧ (rejoinAtRelease s).refPhase = s.refPhase ∧
    (rejoinAtRelease s).freeIndex = s.freeIndex ∧ (rejoinAtRelease s).pending = s.pending := by
  simp only [rejoinAtRelease]
  (repeat' split) <;> simp

@[simp] theorem arbiterAtRelease_keeps (s : State) :
    (arbiterAtRelease s).power = s.power ∧ (arbiterAtRelease s).hs = s.hs ∧
    (arbiterAtRelease s).fe = s.fe ∧ (arbiterAtRelease s).rm = s.rm ∧
    (arbiterAtRelease s).mem = s.mem ∧ (arbiterAtRelease s).rdv = s.rdv ∧
    (arbiterAtRelease s).ctl = s.ctl ∧ (arbiterAtRelease s).port = s.port ∧
    (arbiterAtRelease s).cause = s.cause ∧ (arbiterAtRelease s).pins = s.pins ∧
    (arbiterAtRelease s).refPhase = s.refPhase ∧ (arbiterAtRelease s).freeIndex = s.freeIndex ∧
    (arbiterAtRelease s).pending = s.pending := by
  simp only [arbiterAtRelease]
  (repeat' split) <;> simp

@[simp] theorem releaseOrdinary_keeps (s : State) :
    (releaseOrdinary s).power = s.power ∧ (releaseOrdinary s).port = s.port ∧
    (releaseOrdinary s).refPhase = s.refPhase ∧ (releaseOrdinary s).freeIndex = s.freeIndex ∧
    (releaseOrdinary s).pending = s.pending ∧ (releaseOrdinary s).ctl.configuration = s.ctl.configuration ∧
    (releaseOrdinary s).ctl.number = s.ctl.number ∧ (releaseOrdinary s).ctl.subscriptions = s.ctl.subscriptions ∧
    (releaseOrdinary s).ctl.clock = s.ctl.clock := by
  simp only [releaseOrdinary]
  (repeat' split) <;> simp

@[simp] theorem brkRelease_keeps (own req : Bool) (s : State) :
    (brkRelease own req s).power = s.power ∧ (brkRelease own req s).refPhase = s.refPhase ∧
    (brkRelease own req s).freeIndex = s.freeIndex ∧ (brkRelease own req s).pending = s.pending ∧
    (brkRelease own req s).ctl.configuration = s.ctl.configuration ∧ (brkRelease own req s).ctl.number = s.ctl.number ∧
    (brkRelease own req s).ctl.subscriptions = s.ctl.subscriptions ∧ (brkRelease own req s).ctl.clock = s.ctl.clock := by
  simp only [brkRelease]
  (repeat' split) <;> simp

@[simp] theorem acceptSend_keeps (i : Fin 16) (tag cls destination flags : Byte) (length : Nat) (s : State) :
    (acceptSend i tag cls destination flags length s).power = s.power ∧ (acceptSend i tag cls destination flags length s).line = s.line ∧
    (acceptSend i tag cls destination flags length s).hs = s.hs ∧ (acceptSend i tag cls destination flags length s).arb = s.arb ∧
    (acceptSend i tag cls destination flags length s).fe = s.fe ∧ (acceptSend i tag cls destination flags length s).rm = s.rm ∧
    (acceptSend i tag cls destination flags length s).rdv = s.rdv ∧ (acceptSend i tag cls destination flags length s).ctl = s.ctl ∧
    (acceptSend i tag cls destination flags length s).port = s.port ∧ (acceptSend i tag cls destination flags length s).cause = s.cause ∧
    (acceptSend i tag cls destination flags length s).pins = s.pins ∧ (acceptSend i tag cls destination flags length s).refPhase = s.refPhase ∧
    (acceptSend i tag cls destination flags length s).freeIndex = s.freeIndex ∧ (acceptSend i tag cls destination flags length s).pending = s.pending := by
  simp only [acceptSend]
  simp

@[simp] theorem cmdSend_keeps (tag cls destination flags lengthHigh lengthLow : Byte) (s : State) :
    (cmdSend tag cls destination flags lengthHigh lengthLow s).1.power = s.power ∧ (cmdSend tag cls destination flags lengthHigh lengthLow s).1.hs = s.hs ∧
    (cmdSend tag cls destination flags lengthHigh lengthLow s).1.fe = s.fe ∧ (cmdSend tag cls destination flags lengthHigh lengthLow s).1.rm = s.rm ∧
    (cmdSend tag cls destination flags lengthHigh lengthLow s).1.rdv = s.rdv ∧ (cmdSend tag cls destination flags lengthHigh lengthLow s).1.ctl = s.ctl ∧
    (cmdSend tag cls destination flags lengthHigh lengthLow s).1.port = s.port ∧ (cmdSend tag cls destination flags lengthHigh lengthLow s).1.cause = s.cause ∧
    (cmdSend tag cls destination flags lengthHigh lengthLow s).1.pins = s.pins ∧ (cmdSend tag cls destination flags lengthHigh lengthLow s).1.refPhase = s.refPhase ∧
    (cmdSend tag cls destination flags lengthHigh lengthLow s).1.freeIndex = s.freeIndex ∧ (cmdSend tag cls destination flags lengthHigh lengthLow s).1.pending = s.pending := by
  simp only [cmdSend]
  (repeat' split) <;> simp

@[simp] theorem freeDescriptor_keeps (i : Fin 16) (s : State) :
    (freeDescriptor i s).power = s.power ∧ (freeDescriptor i s).arb = s.arb ∧
    (freeDescriptor i s).ctl = s.ctl ∧ (freeDescriptor i s).port = s.port ∧
    (freeDescriptor i s).pins = s.pins ∧ (freeDescriptor i s).refPhase = s.refPhase ∧
    (freeDescriptor i s).freeIndex = s.freeIndex ∧ (freeDescriptor i s).pending = s.pending := by
  simp only [freeDescriptor]
  simp

@[simp] theorem cmdWithdraw_keeps (tag : Byte) (s : State) :
    (cmdWithdraw tag s).1.power = s.power ∧ (cmdWithdraw tag s).1.arb = s.arb ∧
    (cmdWithdraw tag s).1.ctl = s.ctl ∧ (cmdWithdraw tag s).1.port = s.port ∧
    (cmdWithdraw tag s).1.pins = s.pins ∧ (cmdWithdraw tag s).1.refPhase = s.refPhase ∧
    (cmdWithdraw tag s).1.freeIndex = s.freeIndex ∧ (cmdWithdraw tag s).1.pending = s.pending := by
  simp only [cmdWithdraw]
  (repeat' split) <;> simp

@[simp] theorem cmdReap_keeps (s : State) :
    (cmdReap s).1.power = s.power ∧ (cmdReap s).1.line = s.line ∧
    (cmdReap s).1.hs = s.hs ∧ (cmdReap s).1.arb = s.arb ∧
    (cmdReap s).1.fe = s.fe ∧ (cmdReap s).1.tm = s.tm ∧
    (cmdReap s).1.rm = s.rm ∧ (cmdReap s).1.mem = s.mem ∧
    (cmdReap s).1.rdv = s.rdv ∧ (cmdReap s).1.ctl = s.ctl ∧
    (cmdReap s).1.port = s.port ∧ (cmdReap s).1.cause = s.cause ∧
    (cmdReap s).1.pins = s.pins ∧ (cmdReap s).1.refPhase = s.refPhase ∧
    (cmdReap s).1.freeIndex = s.freeIndex ∧ (cmdReap s).1.pending = s.pending := by
  simp only [cmdReap]
  (repeat' split) <;> simp

@[simp] theorem reapRead_keeps (s : State) :
    (reapRead s).power = s.power ∧ (reapRead s).line = s.line ∧
    (reapRead s).hs = s.hs ∧ (reapRead s).arb = s.arb ∧
    (reapRead s).fe = s.fe ∧ (reapRead s).rm = s.rm ∧
    (reapRead s).mem = s.mem ∧ (reapRead s).rdv = s.rdv ∧
    (reapRead s).ctl = s.ctl ∧ (reapRead s).port = s.port ∧
    (reapRead s).cause = s.cause ∧ (reapRead s).pins = s.pins ∧
    (reapRead s).refPhase = s.refPhase ∧ (reapRead s).freeIndex = s.freeIndex ∧
    (reapRead s).pending = s.pending := by
  simp only [reapRead]
  (repeat' split) <;> simp

@[simp] theorem abandonSend_keeps (s : State) :
    (abandonSend s).power = s.power ∧ (abandonSend s).arb = s.arb ∧
    (abandonSend s).ctl = s.ctl ∧ (abandonSend s).port = s.port ∧
    (abandonSend s).pins = s.pins ∧ (abandonSend s).refPhase = s.refPhase ∧
    (abandonSend s).freeIndex = s.freeIndex ∧ (abandonSend s).pending = s.pending := by
  simp only [abandonSend]
  (repeat' split) <;> simp

@[simp] theorem cmdDiscard_keeps (s : State) :
    (cmdDiscard s).1.power = s.power ∧ (cmdDiscard s).1.arb = s.arb ∧
    (cmdDiscard s).1.tm = s.tm ∧ (cmdDiscard s).1.ctl = s.ctl ∧
    (cmdDiscard s).1.port = s.port ∧ (cmdDiscard s).1.pins = s.pins ∧
    (cmdDiscard s).1.refPhase = s.refPhase ∧ (cmdDiscard s).1.freeIndex = s.freeIndex ∧
    (cmdDiscard s).1.pending = s.pending := by
  simp only [cmdDiscard]
  (repeat' split) <;> simp

@[simp] theorem cmdCauses_keeps (s : State) :
    (cmdCauses s).1.power = s.power ∧ (cmdCauses s).1.line = s.line ∧
    (cmdCauses s).1.hs = s.hs ∧ (cmdCauses s).1.arb = s.arb ∧
    (cmdCauses s).1.fe = s.fe ∧ (cmdCauses s).1.tm = s.tm ∧
    (cmdCauses s).1.rm = s.rm ∧ (cmdCauses s).1.mem = s.mem ∧
    (cmdCauses s).1.rdv = s.rdv ∧ (cmdCauses s).1.ctl = s.ctl ∧
    (cmdCauses s).1.port = s.port ∧ (cmdCauses s).1.cause = s.cause ∧
    (cmdCauses s).1.pins = s.pins ∧ (cmdCauses s).1.refPhase = s.refPhase ∧
    (cmdCauses s).1.freeIndex = s.freeIndex ∧ (cmdCauses s).1.pending = s.pending := by
  simp only [cmdCauses]
  simp

@[simp] theorem cmdAcknowledge_keeps (b : Byte) (s : State) :
    (cmdAcknowledge b s).1.power = s.power ∧ (cmdAcknowledge b s).1.line = s.line ∧
    (cmdAcknowledge b s).1.hs = s.hs ∧ (cmdAcknowledge b s).1.arb = s.arb ∧
    (cmdAcknowledge b s).1.fe = s.fe ∧ (cmdAcknowledge b s).1.tm = s.tm ∧
    (cmdAcknowledge b s).1.rm = s.rm ∧ (cmdAcknowledge b s).1.mem = s.mem ∧
    (cmdAcknowledge b s).1.rdv = s.rdv ∧ (cmdAcknowledge b s).1.ctl = s.ctl ∧
    (cmdAcknowledge b s).1.port = s.port ∧ (cmdAcknowledge b s).1.pins = s.pins ∧
    (cmdAcknowledge b s).1.refPhase = s.refPhase ∧ (cmdAcknowledge b s).1.freeIndex = s.freeIndex ∧
    (cmdAcknowledge b s).1.pending = s.pending := by
  simp only [cmdAcknowledge]
  simp

@[simp] theorem cmdSetMask_keeps (b : Byte) (s : State) :
    (cmdSetMask b s).1.power = s.power ∧ (cmdSetMask b s).1.line = s.line ∧
    (cmdSetMask b s).1.hs = s.hs ∧ (cmdSetMask b s).1.arb = s.arb ∧
    (cmdSetMask b s).1.fe = s.fe ∧ (cmdSetMask b s).1.tm = s.tm ∧
    (cmdSetMask b s).1.rm = s.rm ∧ (cmdSetMask b s).1.mem = s.mem ∧
    (cmdSetMask b s).1.rdv = s.rdv ∧ (cmdSetMask b s).1.ctl = s.ctl ∧
    (cmdSetMask b s).1.port = s.port ∧ (cmdSetMask b s).1.pins = s.pins ∧
    (cmdSetMask b s).1.refPhase = s.refPhase ∧ (cmdSetMask b s).1.freeIndex = s.freeIndex ∧
    (cmdSetMask b s).1.pending = s.pending := by
  simp only [cmdSetMask]
  simp

@[simp] theorem cmdSnapshot_keeps (flags : Byte) (s : State) :
    (cmdSnapshot flags s).1.power = s.power ∧ (cmdSnapshot flags s).1.line = s.line ∧
    (cmdSnapshot flags s).1.hs = s.hs ∧ (cmdSnapshot flags s).1.arb = s.arb ∧
    (cmdSnapshot flags s).1.fe = s.fe ∧ (cmdSnapshot flags s).1.tm = s.tm ∧
    (cmdSnapshot flags s).1.rm = s.rm ∧ (cmdSnapshot flags s).1.mem = s.mem ∧
    (cmdSnapshot flags s).1.rdv = s.rdv ∧ (cmdSnapshot flags s).1.ctl = s.ctl ∧
    (cmdSnapshot flags s).1.port = s.port ∧ (cmdSnapshot flags s).1.pins = s.pins ∧
    (cmdSnapshot flags s).1.refPhase = s.refPhase ∧ (cmdSnapshot flags s).1.freeIndex = s.freeIndex ∧
    (cmdSnapshot flags s).1.pending = s.pending := by
  simp only [cmdSnapshot]
  (repeat' split) <;> simp

@[simp] theorem ownerAction_keeps (command : HostCommand) (parameters : List Byte) (s : State) :
    (ownerAction command parameters s).1.power = s.power ∧ (ownerAction command parameters s).1.refPhase = s.refPhase ∧
    (ownerAction command parameters s).1.freeIndex = s.freeIndex ∧ (ownerAction command parameters s).1.pending = s.pending ∧
    (ownerAction command parameters s).1.ctl.number = s.ctl.number ∧ (ownerAction command parameters s).1.ctl.clock = s.ctl.clock := by
  cases command <;> simp [ownerAction]

@[simp] theorem answerTo_keeps (code : Byte) (parameters : List Byte) (s : State) :
    (answerTo code parameters s).1.power = s.power ∧ (answerTo code parameters s).1.refPhase = s.refPhase ∧
    (answerTo code parameters s).1.freeIndex = s.freeIndex ∧ (answerTo code parameters s).1.pending = s.pending ∧
    (answerTo code parameters s).1.ctl.number = s.ctl.number ∧ (answerTo code parameters s).1.ctl.clock = s.ctl.clock := by
  simp only [answerTo]
  (repeat' split) <;> simp

@[simp] theorem deliver_keeps (code : Byte) (parameters : List Byte) (s : State) :
    (deliver code parameters s).power = s.power ∧ (deliver code parameters s).refPhase = s.refPhase ∧
    (deliver code parameters s).freeIndex = s.freeIndex ∧ (deliver code parameters s).pending = s.pending ∧
    (deliver code parameters s).ctl.number = s.ctl.number ∧ (deliver code parameters s).ctl.clock = s.ctl.clock := by
  unfold deliver
  dsimp only
  split <;> simp

@[simp] theorem commandByte_keeps (b : Byte) (s : State) :
    (commandByte b s).power = s.power ∧ (commandByte b s).refPhase = s.refPhase ∧
    (commandByte b s).freeIndex = s.freeIndex ∧ (commandByte b s).pending = s.pending ∧
    (commandByte b s).ctl.number = s.ctl.number ∧ (commandByte b s).ctl.clock = s.ctl.clock := by
  simp only [commandByte]
  (repeat' split) <;> simp

@[simp] theorem parameterByte_keeps (b : Byte) (s : State) :
    (parameterByte b s).power = s.power ∧ (parameterByte b s).refPhase = s.refPhase ∧
    (parameterByte b s).freeIndex = s.freeIndex ∧ (parameterByte b s).pending = s.pending ∧
    (parameterByte b s).ctl.number = s.ctl.number ∧ (parameterByte b s).ctl.clock = s.ctl.clock := by
  simp only [parameterByte]
  (repeat' split) <;> simp

@[simp] theorem placePayloadByte_keeps (i : Fin 16) (b : Byte) (s : State) :
    (placePayloadByte i b s).power = s.power ∧ (placePayloadByte i b s).line = s.line ∧
    (placePayloadByte i b s).hs = s.hs ∧ (placePayloadByte i b s).arb = s.arb ∧
    (placePayloadByte i b s).fe = s.fe ∧ (placePayloadByte i b s).tm = s.tm ∧
    (placePayloadByte i b s).rm = s.rm ∧ (placePayloadByte i b s).rdv = s.rdv ∧
    (placePayloadByte i b s).ctl = s.ctl ∧ (placePayloadByte i b s).port = s.port ∧
    (placePayloadByte i b s).cause = s.cause ∧ (placePayloadByte i b s).pins = s.pins ∧
    (placePayloadByte i b s).refPhase = s.refPhase ∧ (placePayloadByte i b s).freeIndex = s.freeIndex ∧
    (placePayloadByte i b s).pending = s.pending := by
  simp only [placePayloadByte]
  simp

@[simp] theorem payloadByte_keeps (b : Byte) (s : State) :
    (payloadByte b s).power = s.power ∧ (payloadByte b s).hs = s.hs ∧
    (payloadByte b s).fe = s.fe ∧ (payloadByte b s).rm = s.rm ∧
    (payloadByte b s).rdv = s.rdv ∧ (payloadByte b s).ctl = s.ctl ∧
    (payloadByte b s).cause = s.cause ∧ (payloadByte b s).pins = s.pins ∧
    (payloadByte b s).refPhase = s.refPhase ∧ (payloadByte b s).freeIndex = s.freeIndex ∧
    (payloadByte b s).pending = s.pending := by
  simp only [payloadByte]
  (repeat' split) <;> simp

@[simp] theorem endByRead_keeps (b : Byte) (s : State) :
    (endByRead b s).power = s.power ∧ (endByRead b s).line = s.line ∧
    (endByRead b s).hs = s.hs ∧ (endByRead b s).arb = s.arb ∧
    (endByRead b s).fe = s.fe ∧ (endByRead b s).tm = s.tm ∧
    (endByRead b s).rm = s.rm ∧ (endByRead b s).mem = s.mem ∧
    (endByRead b s).rdv = s.rdv ∧ (endByRead b s).ctl = s.ctl ∧
    (endByRead b s).cause = s.cause ∧ (endByRead b s).pins = s.pins ∧
    (endByRead b s).refPhase = s.refPhase ∧ (endByRead b s).freeIndex = s.freeIndex ∧
    (endByRead b s).pending = s.pending := by
  simp only [endByRead]
  simp

@[simp] theorem fetchResultRead_keeps (b : Byte) (s : State) :
    (fetchResultRead b s).power = s.power ∧ (fetchResultRead b s).arb = s.arb ∧
    (fetchResultRead b s).tm = s.tm ∧ (fetchResultRead b s).ctl = s.ctl ∧
    (fetchResultRead b s).pins = s.pins ∧ (fetchResultRead b s).refPhase = s.refPhase ∧
    (fetchResultRead b s).freeIndex = s.freeIndex ∧ (fetchResultRead b s).pending = s.pending := by
  simp only [fetchResultRead]
  (repeat' split) <;> simp

@[simp] theorem resultRead_keeps (b : Byte) (s : State) :
    (resultRead b s).power = s.power ∧ (resultRead b s).arb = s.arb ∧
    (resultRead b s).ctl = s.ctl ∧ (resultRead b s).pins = s.pins ∧
    (resultRead b s).refPhase = s.refPhase ∧ (resultRead b s).freeIndex = s.freeIndex ∧
    (resultRead b s).pending = s.pending := by
  simp only [resultRead]
  (repeat' split) <;> simp

@[simp] theorem resultByte_keeps (s : State) :
    (resultByte s).power = s.power ∧ (resultByte s).arb = s.arb ∧
    (resultByte s).ctl = s.ctl ∧ (resultByte s).pins = s.pins ∧
    (resultByte s).refPhase = s.refPhase ∧ (resultByte s).freeIndex = s.freeIndex ∧
    (resultByte s).pending = s.pending := by
  simp only [resultByte]
  (repeat' split) <;> simp

@[simp] theorem payloadRead_keeps (s : State) :
    (payloadRead s).power = s.power ∧ (payloadRead s).arb = s.arb ∧
    (payloadRead s).tm = s.tm ∧ (payloadRead s).ctl = s.ctl ∧
    (payloadRead s).pins = s.pins ∧ (payloadRead s).refPhase = s.refPhase ∧
    (payloadRead s).freeIndex = s.freeIndex ∧ (payloadRead s).pending = s.pending := by
  simp only [payloadRead]
  (repeat' split) <;> simp

@[simp] theorem strayWrite_keeps (s : State) :
    (strayWrite s).power = s.power ∧ (strayWrite s).line = s.line ∧
    (strayWrite s).hs = s.hs ∧ (strayWrite s).arb = s.arb ∧
    (strayWrite s).fe = s.fe ∧ (strayWrite s).tm = s.tm ∧
    (strayWrite s).rm = s.rm ∧ (strayWrite s).mem = s.mem ∧
    (strayWrite s).rdv = s.rdv ∧ (strayWrite s).ctl = s.ctl ∧
    (strayWrite s).pins = s.pins ∧ (strayWrite s).refPhase = s.refPhase ∧
    (strayWrite s).freeIndex = s.freeIndex ∧ (strayWrite s).pending = s.pending := by
  simp only [strayWrite]
  (repeat' split) <;> simp

@[simp] theorem strayRead_keeps (s : State) :
    (strayRead s).power = s.power ∧ (strayRead s).line = s.line ∧
    (strayRead s).hs = s.hs ∧ (strayRead s).arb = s.arb ∧
    (strayRead s).fe = s.fe ∧ (strayRead s).tm = s.tm ∧
    (strayRead s).rm = s.rm ∧ (strayRead s).mem = s.mem ∧
    (strayRead s).rdv = s.rdv ∧ (strayRead s).ctl = s.ctl ∧
    (strayRead s).pins = s.pins ∧ (strayRead s).refPhase = s.refPhase ∧
    (strayRead s).freeIndex = s.freeIndex ∧ (strayRead s).pending = s.pending := by
  simp only [strayRead]
  (repeat' split) <;> simp

@[simp] theorem dataWrite_keeps (b : Byte) (s : State) :
    (dataWrite b s).power = s.power ∧ (dataWrite b s).refPhase = s.refPhase ∧
    (dataWrite b s).freeIndex = s.freeIndex ∧ (dataWrite b s).pending = s.pending ∧
    (dataWrite b s).ctl.number = s.ctl.number ∧ (dataWrite b s).ctl.clock = s.ctl.clock := by
  simp only [dataWrite]
  (repeat' split) <;> simp

@[simp] theorem dataRead_keeps (s : State) :
    (dataRead s).power = s.power ∧ (dataRead s).arb = s.arb ∧
    (dataRead s).ctl = s.ctl ∧ (dataRead s).pins = s.pins ∧
    (dataRead s).refPhase = s.refPhase ∧ (dataRead s).freeIndex = s.freeIndex ∧
    (dataRead s).pending = s.pending := by
  simp only [dataRead]
  (repeat' split) <;> simp

@[simp] theorem dropResult_keeps (s : State) :
    (dropResult s).power = s.power ∧ (dropResult s).line = s.line ∧
    (dropResult s).hs = s.hs ∧ (dropResult s).arb = s.arb ∧
    (dropResult s).fe = s.fe ∧ (dropResult s).tm = s.tm ∧
    (dropResult s).rm = s.rm ∧ (dropResult s).mem = s.mem ∧
    (dropResult s).ctl = s.ctl ∧ (dropResult s).cause = s.cause ∧
    (dropResult s).pins = s.pins ∧ (dropResult s).refPhase = s.refPhase ∧
    (dropResult s).freeIndex = s.freeIndex ∧ (dropResult s).pending = s.pending := by
  simp only [dropResult]
  simp

@[simp] theorem abandon_keeps (s : State) :
    (abandon s).power = s.power ∧ (abandon s).arb = s.arb ∧
    (abandon s).ctl = s.ctl ∧ (abandon s).pins = s.pins ∧
    (abandon s).refPhase = s.refPhase ∧ (abandon s).freeIndex = s.freeIndex ∧
    (abandon s).pending = s.pending := by
  simp only [abandon]
  (repeat' split) <;> simp

@[simp] theorem busyEnd_keeps (s : State) :
    (busyEnd s).power = s.power ∧ (busyEnd s).arb = s.arb ∧
    (busyEnd s).ctl = s.ctl ∧ (busyEnd s).pins = s.pins ∧
    (busyEnd s).refPhase = s.refPhase ∧ (busyEnd s).freeIndex = s.freeIndex ∧
    (busyEnd s).pending = s.pending := by
  simp only [busyEnd]
  (repeat' split) <;> simp

@[simp] theorem giveCommand_keeps (code : Byte) (parameters : List Byte) (s : State) :
    (giveCommand code parameters s).power = s.power ∧ (giveCommand code parameters s).refPhase = s.refPhase ∧
    (giveCommand code parameters s).freeIndex = s.freeIndex ∧ (giveCommand code parameters s).pending = s.pending ∧
    (giveCommand code parameters s).ctl.number = s.ctl.number ∧ (giveCommand code parameters s).ctl.clock = s.ctl.clock := by
  unfold giveCommand
  split
  · simp
  rename_i notFree; clear notFree
  generalize code :: parameters = bytes
  induction bytes generalizing s with
  | nil => simp
  | cons b rest ih => simp [ih]

end Sys2Proof.Machine
end

