-- ==== Sys2Proof/Laws/Memory.lean ====
section
/-! SUPPORT. The packet memory's contents: what a write changes, and that every operation on them keeps the canonical form. -/

namespace Sys2Proof.Machine

open Sys2Proof

/-- Every listed address lies above this one. -/
def Memory.above (a : Nat) (m : List Host.Cell) : Prop := ∀ c ∈ m, a < c.1

/-- The canonical form of a listed memory, as a proposition. -/
theorem Memory.wf_cons (k : Nat) (v : Byte) (m : List Host.Cell) :
    Memory.wf ((k, v) :: m) = true ↔
      v ≠ Memory.unwritten ∧ Memory.above k m ∧ Memory.wf m = true := by
  simp [Memory.wf, Memory.above, and_assoc]

/-- An address below every listed one reads as unwritten. -/
theorem Memory.read_of_above {a : Nat} : ∀ {m : List Host.Cell}, Memory.above a m →
    Memory.read m a = Memory.unwritten
  | [], _ => rfl
  | (k, v) :: m, h => by
    have hk : a < k := h (k, v) (by simp)
    have hm : Memory.above a m := fun c hc => h c (by simp [hc])
    simp only [Memory.read]
    rw [if_neg (by omega), Memory.read_of_above hm]

/-- Reading after placing one cell in front. -/
theorem Memory.read_cons_self {a : Nat} {v : Byte} {m : List Host.Cell} (h : Memory.above a m) :
    Memory.read (Memory.cons a v m) a = v := by
  unfold Memory.cons
  split
  · rw [Memory.read_of_above h]; exact Eq.symm (by assumption)
  · simp [Memory.read]

/-- A cell placed in front changes no other address. -/
theorem Memory.read_cons_other {a x : Nat} {v : Byte} {m : List Host.Cell} (h : x ≠ a) :
    Memory.read (Memory.cons a v m) x = Memory.read m x := by
  unfold Memory.cons
  split
  · rfl
  · simp [Memory.read, Ne.symm h]

/-- A written byte is read back. -/
theorem Memory.read_write_self {a : Nat} {v : Byte} : ∀ {m : List Host.Cell},
    Memory.wf m = true → Memory.read (Memory.write m a v) a = v
  | [], _ => Memory.read_cons_self (fun _ h => by simp at h)
  | (k, w) :: m, h => by
    obtain ⟨_, hk, hm⟩ := (Memory.wf_cons k w m).1 h
    simp only [Memory.write]
    split
    · apply Memory.read_cons_self
      intro c hc
      rcases List.mem_cons.1 hc with rfl | hc
      · assumption
      · exact Nat.lt_trans (by assumption) (hk c hc)
    · split
      · subst a; exact Memory.read_cons_self hk
      · simp only [Memory.read]
        rw [if_neg (by omega)]
        exact Memory.read_write_self hm

/-- A write changes no other byte. -/
theorem Memory.read_write_other {a x : Nat} {v : Byte} (hx : x ≠ a) : ∀ (m : List Host.Cell),
    Memory.read (Memory.write m a v) x = Memory.read m x
  | [] => Memory.read_cons_other hx
  | (k, w) :: m => by
    simp only [Memory.write]
    split
    · exact Memory.read_cons_other hx
    · split
      · subst a
        rw [Memory.read_cons_other hx]
        simp [Memory.read, Ne.symm hx]
      · simp only [Memory.read]
        rw [Memory.read_write_other hx m]

/-- A write lists nothing at or below an address that lay below everything. -/
theorem Memory.above_write {b a : Nat} {v : Byte} (hb : b < a) : ∀ {m : List Host.Cell},
    Memory.above b m → Memory.above b (Memory.write m a v)
  | [], _ => by
    intro c hc
    simp only [Memory.write, Memory.cons] at hc
    split at hc
    · simp at hc
    · simp at hc; subst hc; exact hb
  | (k, w) :: m, h => by
    have hm : Memory.above b m := fun c hc => h c (by simp [hc])
    intro c hc
    simp only [Memory.write, Memory.cons] at hc
    split at hc
    · split at hc
      · exact h c hc
      · rcases List.mem_cons.1 hc with rfl | hc
        · exact hb
        · exact h c hc
    · split at hc
      · split at hc
        · exact hm c hc
        · rcases List.mem_cons.1 hc with rfl | hc
          · exact hb
          · exact hm c hc
      · rcases List.mem_cons.1 hc with rfl | hc
        · exact h _ (by simp)
        · exact Memory.above_write hb hm c hc

/-- A cell placed in front of higher addresses keeps the canonical form. -/
theorem Memory.wf_of_cons {a : Nat} {v : Byte} {m : List Host.Cell} (ha : Memory.above a m)
    (hm : Memory.wf m = true) : Memory.wf (Memory.cons a v m) = true := by
  unfold Memory.cons
  split
  · exact hm
  · exact (Memory.wf_cons a v m).2 ⟨by assumption, ha, hm⟩

/-- A write keeps the canonical form. -/
theorem Memory.wf_write {a : Nat} {v : Byte} : ∀ {m : List Host.Cell},
    Memory.wf m = true → Memory.wf (Memory.write m a v) = true
  | [], _ => Memory.wf_of_cons (fun _ h => by simp at h) rfl
  | (k, w) :: m, h => by
    obtain ⟨hw, hk, hm⟩ := (Memory.wf_cons k w m).1 h
    simp only [Memory.write]
    split
    · refine Memory.wf_of_cons ?_ h
      intro c hc
      rcases List.mem_cons.1 hc with rfl | hc
      · assumption
      · exact Nat.lt_trans (by assumption) (hk c hc)
    · split
      · subst a; exact Memory.wf_of_cons hk hm
      · exact (Memory.wf_cons _ _ _).2
          ⟨hw, Memory.above_write (by omega) hk, Memory.wf_write hm⟩

/-- Placing a payload byte keeps the canonical form. -/
theorem writePayload_wf {cells : List Host.Cell} {blocks : List Nat} {i : Nat} {v : Byte}
    (h : Memory.wf cells = true) : Memory.wf (writePayload cells blocks i v) = true := by
  unfold writePayload
  split
  · exact Memory.wf_write h
  · exact h

/-- Storing copies keeps the canonical form. -/
theorem storeCopies_wf (value : Byte) (last : Bool) : ∀ (n : Nat) (s : State),
    Memory.wf s.mem.cells = true → Memory.wf (storeCopies value last n s).mem.cells = true
  | 0, _, h => h
  | n + 1, s, h => by
    unfold storeCopies
    split
    · exact h
    · split
      · exact storeCopies_wf value last n _ (writePayload_wf h)
      · split
        · exact storeCopies_wf value last n _ (writePayload_wf h)
        · unfold requestRefused; split <;> exact h

/-- Receiving a data byte with its copy count keeps the canonical form. -/
theorem receiveCopies_wf {value : Byte} {n : Nat} {last : Bool} {s : State}
    (h : Memory.wf s.mem.cells = true) :
    Memory.wf (receiveCopies value n last s).mem.cells = true := by
  unfold receiveCopies
  split
  · exact storeCopies_wf value last n _ h
  all_goals exact h

/-- Renewing a refused block request keeps the canonical form. -/
theorem renewRequest_wf {s : State} (h : Memory.wf s.mem.cells = true) :
    Memory.wf (renewRequest s).mem.cells = true := by
  unfold renewRequest
  split
  · exact storeCopies_wf _ _ _ _ h
  · exact h

/-- Placing SEND's payload byte keeps the canonical form. -/
theorem placePayloadByte_wf {i : Fin 16} {b : Byte} {s : State}
    (h : Memory.wf s.mem.cells = true) :
    Memory.wf (placePayloadByte i b s).mem.cells = true :=
  writePayload_wf h

/-- The packet memory after power-on reset is in canonical form. -/
theorem reset_wf : Memory.wf State.reset.mem.cells = true := rfl

end Sys2Proof.Machine
end

