-- ==== Sys2Proof/Laws/State.lean ====
section
/-! SUPPORT. The fields of each plain update: what is set, and what beside it stays. Laws/Frame.lean has the parts of the state an operation leaves alone. -/

namespace Sys2Proof.Machine

open Sys2Proof

/-- One entry of the table is replaced. -/
@[simp] theorem setDescriptor_sets (i : Fin 16) (d : Descriptor) (s : State) :
    (setDescriptor i d s).tm.table = s.tm.table.set i d ∧
    (setDescriptor i d s).tm.urgent = s.tm.urgent ∧
    (setDescriptor i d s).tm.normal = s.tm.normal ∧
    (setDescriptor i d s).tm.completion = s.tm.completion ∧
    (setDescriptor i d s).tm.slot = s.tm.slot ∧
    (setDescriptor i d s).tm.handed = s.tm.handed := by
  simp [setDescriptor]

/-- A descriptor leaves its queue. -/
@[simp] theorem leaveQueue_sets (i : Fin 16) (s : State) :
    (leaveQueue i s).tm.table = s.tm.table ∧
    (leaveQueue i s).tm.urgent = s.tm.urgent.filter (· != i) ∧
    (leaveQueue i s).tm.normal = s.tm.normal.filter (· != i) ∧
    (leaveQueue i s).tm.completion = s.tm.completion ∧
    (leaveQueue i s).tm.slot = s.tm.slot ∧
    (leaveQueue i s).tm.handed = s.tm.handed := by
  simp [leaveQueue]

/-- The slot holds what it is given. -/
@[simp] theorem setSlot_sets (f : Option SlotFrame) (s : State) :
    (setSlot f s).tm.table = s.tm.table ∧
    (setSlot f s).tm.urgent = s.tm.urgent ∧
    (setSlot f s).tm.normal = s.tm.normal ∧
    (setSlot f s).tm.completion = s.tm.completion ∧
    (setSlot f s).tm.slot = f ∧
    (setSlot f s).tm.handed = s.tm.handed := by
  simp [setSlot]

/-- The view is replaced. -/
@[simp] theorem setView_sets (v : View) (s : State) :
    (setView v s).rdv.view = v ∧
    (setView v s).rdv.noted = s.rdv.noted ∧
    (setView v s).rdv.outcomes = s.rdv.outcomes ∧
    (setView v s).rdv.reading = s.rdv.reading ∧
    (setView v s).rdv.firePulse = s.rdv.firePulse := by
  simp [setView]

/-- Blocks join the tail of the pool. -/
@[simp] theorem returnToPool_sets (blocks : List Nat) (s : State) :
    (returnToPool blocks s).mem.cells = s.mem.cells ∧
    (returnToPool blocks s).mem.pool = s.mem.pool ++ blocks := by
  simp [returnToPool]

/-- TRG is driven. -/
@[simp] theorem assertTrg_sets (s : State) :
    (assertTrg s).line.sense = s.line.sense ∧
    (assertTrg s).line.observed = s.line.observed ∧
    (assertTrg s).line.framePulse = s.line.framePulse ∧
    (assertTrg s).line.clearPulse = s.line.clearPulse ∧
    (assertTrg s).line.measure = s.line.measure ∧
    (assertTrg s).line.guard = s.line.guard ∧
    (assertTrg s).line.heldFrame = s.line.heldFrame ∧
    (assertTrg s).line.heldClear = s.line.heldClear ∧
    (assertTrg s).line.trgDelay = s.line.trgDelay ∧
    (assertTrg s).line.delayedClear = s.line.delayedClear ∧
    (assertTrg s).line.drive.data = s.line.drive.data ∧
    (assertTrg s).line.drive.kind = s.line.drive.kind ∧
    (assertTrg s).line.drive.last = s.line.drive.last ∧
    (assertTrg s).line.drive.offer = s.line.drive.offer ∧
    (assertTrg s).line.drive.wait = s.line.drive.wait ∧
    (assertTrg s).line.drive.pend = s.line.drive.pend ∧
    (assertTrg s).line.drive.req = s.line.drive.req ∧
    (assertTrg s).line.drive.own = s.line.drive.own ∧
    (assertTrg s).line.drive.brk = s.line.drive.brk ∧
    (assertTrg s).line.drive.trg = true := by
  simp [assertTrg]

/-- The lines of a byte are released. -/
@[simp] theorem releaseByte_sets (s : State) :
    (releaseByte s).line.sense = s.line.sense ∧
    (releaseByte s).line.observed = s.line.observed ∧
    (releaseByte s).line.framePulse = s.line.framePulse ∧
    (releaseByte s).line.clearPulse = s.line.clearPulse ∧
    (releaseByte s).line.measure = s.line.measure ∧
    (releaseByte s).line.guard = s.line.guard ∧
    (releaseByte s).line.heldFrame = s.line.heldFrame ∧
    (releaseByte s).line.heldClear = s.line.heldClear ∧
    (releaseByte s).line.trgDelay = s.line.trgDelay ∧
    (releaseByte s).line.delayedClear = s.line.delayedClear ∧
    (releaseByte s).line.drive.data = 0 ∧
    (releaseByte s).line.drive.kind = false ∧
    (releaseByte s).line.drive.last = false ∧
    (releaseByte s).line.drive.offer = s.line.drive.offer ∧
    (releaseByte s).line.drive.wait = s.line.drive.wait ∧
    (releaseByte s).line.drive.pend = s.line.drive.pend ∧
    (releaseByte s).line.drive.req = s.line.drive.req ∧
    (releaseByte s).line.drive.own = s.line.drive.own ∧
    (releaseByte s).line.drive.brk = s.line.drive.brk ∧
    (releaseByte s).line.drive.trg = s.line.drive.trg := by
  simp [releaseByte]

/-- The arbiter is in OUTSIDE, its timers stopped. -/
@[simp] theorem enterOutside_sets (s : State) :
    (enterOutside s).arb.phase = .outside ∧
    (enterOutside s).arb.bid = none ∧
    (enterOutside s).arb.settle = none ∧
    (enterOutside s).arb.roundFlag = s.arb.roundFlag ∧
    (enterOutside s).arb.roundGap = none := by
  simp [enterOutside]

/-- The station is an at-rest participant. -/
@[simp] theorem restAsParticipant_sets (s : State) :
    (restAsParticipant s).hs.role = .participant .ready ∧
    (restAsParticipant s).hs.latch = s.hs.latch ∧
    (restAsParticipant s).hs.stall = s.hs.stall ∧
    (restAsParticipant s).hs.silence = s.hs.silence ∧
    (restAsParticipant s).hs.setUp = s.hs.setUp ∧
    (restAsParticipant s).hs.window = s.hs.window ∧
    (restAsParticipant s).hs.complete = s.hs.complete ∧
    (restAsParticipant s).hs.rejoin = s.hs.rejoin ∧
    (restAsParticipant s).line.sense = s.line.sense ∧
    (restAsParticipant s).line.observed = s.line.observed ∧
    (restAsParticipant s).line.framePulse = s.line.framePulse ∧
    (restAsParticipant s).line.clearPulse = s.line.clearPulse ∧
    (restAsParticipant s).line.measure = s.line.measure ∧
    (restAsParticipant s).line.guard = s.line.guard ∧
    (restAsParticipant s).line.heldFrame = s.line.heldFrame ∧
    (restAsParticipant s).line.heldClear = s.line.heldClear ∧
    (restAsParticipant s).line.trgDelay = s.line.trgDelay ∧
    (restAsParticipant s).line.delayedClear = s.line.delayedClear ∧
    (restAsParticipant s).line.drive.data = s.line.drive.data ∧
    (restAsParticipant s).line.drive.kind = s.line.drive.kind ∧
    (restAsParticipant s).line.drive.last = s.line.drive.last ∧
    (restAsParticipant s).line.drive.offer = s.line.drive.offer ∧
    (restAsParticipant s).line.drive.wait = false ∧
    (restAsParticipant s).line.drive.pend = true ∧
    (restAsParticipant s).line.drive.req = s.line.drive.req ∧
    (restAsParticipant s).line.drive.own = s.line.drive.own ∧
    (restAsParticipant s).line.drive.brk = s.line.drive.brk ∧
    (restAsParticipant s).line.drive.trg = s.line.drive.trg := by
  simp [restAsParticipant]

/-- A running silence timer starts again. -/
@[simp] theorem restartSilence_sets (s : State) :
    (restartSilence s).hs.role = s.hs.role ∧
    (restartSilence s).hs.latch = s.hs.latch ∧
    (restartSilence s).hs.stall = s.hs.stall ∧
    (restartSilence s).hs.silence = (s.hs.silence.map (fun _ => 0)) ∧
    (restartSilence s).hs.setUp = s.hs.setUp ∧
    (restartSilence s).hs.window = s.hs.window ∧
    (restartSilence s).hs.complete = s.hs.complete ∧
    (restartSilence s).hs.rejoin = s.hs.rejoin ∧
    (restartSilence s).line.drive = s.line.drive ∧
    (restartSilence s).line.sense = s.line.sense ∧
    (restartSilence s).line.observed = s.line.observed ∧
    (restartSilence s).line.framePulse = s.line.framePulse ∧
    (restartSilence s).line.clearPulse = s.line.clearPulse ∧
    (restartSilence s).line.measure = s.line.measure ∧
    (restartSilence s).line.guard = s.line.guard ∧
    (restartSilence s).line.heldFrame = s.line.heldFrame.filter (· != .silence) ∧
    (restartSilence s).line.heldClear = s.line.heldClear ∧
    (restartSilence s).line.trgDelay = s.line.trgDelay ∧
    (restartSilence s).line.delayedClear = s.line.delayedClear := by
  simp [restartSilence]

/-- The silence timer stops. -/
@[simp] theorem stopSilence_sets (s : State) :
    (stopSilence s).hs.role = s.hs.role ∧
    (stopSilence s).hs.latch = s.hs.latch ∧
    (stopSilence s).hs.stall = s.hs.stall ∧
    (stopSilence s).hs.silence = none ∧
    (stopSilence s).hs.setUp = s.hs.setUp ∧
    (stopSilence s).hs.window = s.hs.window ∧
    (stopSilence s).hs.complete = s.hs.complete ∧
    (stopSilence s).hs.rejoin = s.hs.rejoin ∧
    (stopSilence s).line.drive = s.line.drive ∧
    (stopSilence s).line.sense = s.line.sense ∧
    (stopSilence s).line.observed = s.line.observed ∧
    (stopSilence s).line.framePulse = s.line.framePulse ∧
    (stopSilence s).line.clearPulse = s.line.clearPulse ∧
    (stopSilence s).line.measure = s.line.measure ∧
    (stopSilence s).line.guard = s.line.guard ∧
    (stopSilence s).line.heldFrame = s.line.heldFrame.filter (· != .silence) ∧
    (stopSilence s).line.heldClear = s.line.heldClear ∧
    (stopSilence s).line.trgDelay = s.line.trgDelay ∧
    (stopSilence s).line.delayedClear = s.line.delayedClear := by
  simp [stopSilence]

/-- The silence timer runs while OWN or REQ is sensed asserted. -/
@[simp] theorem resumeSilence_sets (s : State) :
    (resumeSilence s).hs.role = s.hs.role ∧
    (resumeSilence s).hs.latch = s.hs.latch ∧
    (resumeSilence s).hs.stall = s.hs.stall ∧
    (resumeSilence s).hs.silence = (if s.line.sense.own || s.line.sense.req then some 0 else none) ∧
    (resumeSilence s).hs.setUp = s.hs.setUp ∧
    (resumeSilence s).hs.window = s.hs.window ∧
    (resumeSilence s).hs.complete = s.hs.complete ∧
    (resumeSilence s).hs.rejoin = s.hs.rejoin := by
  simp [resumeSilence]

/-- No frame is in progress. -/
@[simp] theorem endFrameState_sets (s : State) :
    (endFrameState s).hs.role = s.hs.role ∧
    (endFrameState s).hs.latch = s.hs.latch ∧
    (endFrameState s).hs.stall = s.hs.stall ∧
    (endFrameState s).hs.silence = s.hs.silence ∧
    (endFrameState s).hs.setUp = s.hs.setUp ∧
    (endFrameState s).hs.window = none ∧
    (endFrameState s).hs.complete = s.hs.complete ∧
    (endFrameState s).hs.rejoin = s.hs.rejoin ∧
    (endFrameState s).fe.frame = FrameState.absent ∧
    (endFrameState s).fe.sentBytes = s.fe.sentBytes ∧
    (endFrameState s).fe.comparator = s.fe.comparator := by
  simp [endFrameState]

/-- Reception is idle. -/
@[simp] theorem receptionIdle_sets (s : State) :
    (receptionIdle s).rm.state = .idle ∧
    (receptionIdle s).rm.policy = none ∧
    (receptionIdle s).rm.construction = none ∧
    (receptionIdle s).rm.held = none ∧
    (receptionIdle s).rm.records = s.rm.records ∧
    (receptionIdle s).rm.sequence = s.rm.sequence := by
  simp [receptionIdle]

/-- A record is under construction. -/
@[simp] theorem reserveSlot_sets (s : State) :
    (reserveSlot s).rm.state = .storing ∧
    (reserveSlot s).rm.policy = s.rm.policy ∧
    (reserveSlot s).rm.construction = some
      { source := s.fe.frame.source.getD 0, address := s.fe.frame.address.getD 0, type := typeData,
        blocks := [], keptLength := 0, fullLength := 0, status := .complete } ∧
    (reserveSlot s).rm.held = s.rm.held ∧
    (reserveSlot s).rm.records = s.rm.records ∧
    (reserveSlot s).rm.sequence = s.rm.sequence := by
  simp [reserveSlot]

/-- STATION is set with its reason. -/
@[simp] theorem handStation_sets (reason : StationReason) (s : State) :
    (handStation reason s).cause.port = s.cause.port ∧
    (handStation reason s).cause.station = true ∧
    (handStation reason s).cause.bus = s.cause.bus ∧
    (handStation reason s).cause.reason = some reason ∧
    (handStation reason s).cause.rendezvous = s.cause.rendezvous ∧
    (handStation reason s).cause.receive = s.cause.receive ∧
    (handStation reason s).cause.complete = s.cause.complete ∧
    (handStation reason s).cause.mask = s.cause.mask ∧
    (handStation reason s).cause.int = s.cause.int ∧
    (handStation reason s).cause.counters = s.cause.counters := by
  simp [handStation]

/-- PORT is set. -/
@[simp] theorem handPort_sets (s : State) :
    (handPort s).cause.port = true ∧
    (handPort s).cause.station = s.cause.station ∧
    (handPort s).cause.bus = s.cause.bus ∧
    (handPort s).cause.reason = s.cause.reason ∧
    (handPort s).cause.rendezvous = s.cause.rendezvous ∧
    (handPort s).cause.receive = s.cause.receive ∧
    (handPort s).cause.complete = s.cause.complete ∧
    (handPort s).cause.mask = s.cause.mask ∧
    (handPort s).cause.int = s.cause.int ∧
    (handPort s).cause.counters = s.cause.counters := by
  simp [handPort]

/-- BUS is set and the break is counted. -/
@[simp] theorem handFrameBreak_sets (s : State) :
    (handFrameBreak s).cause.port = s.cause.port ∧
    (handFrameBreak s).cause.station = s.cause.station ∧
    (handFrameBreak s).cause.bus = true ∧
    (handFrameBreak s).cause.reason = s.cause.reason ∧
    (handFrameBreak s).cause.rendezvous = s.cause.rendezvous ∧
    (handFrameBreak s).cause.receive = s.cause.receive ∧
    (handFrameBreak s).cause.complete = s.cause.complete ∧
    (handFrameBreak s).cause.mask = s.cause.mask ∧
    (handFrameBreak s).cause.int = s.cause.int ∧
    (handFrameBreak s).cause.counters.frameBreaks = countUp s.cause.counters.frameBreaks ∧
    (handFrameBreak s).cause.counters.clearBreaks = s.cause.counters.clearBreaks ∧
    (handFrameBreak s).cause.counters.framesDropped = s.cause.counters.framesDropped ∧
    (handFrameBreak s).cause.counters.recordsTruncated = s.cause.counters.recordsTruncated ∧
    (handFrameBreak s).cause.counters.recordsMalformed = s.cause.counters.recordsMalformed ∧
    (handFrameBreak s).cause.counters.outcomesLost = s.cause.counters.outcomesLost ∧
    (handFrameBreak s).cause.counters.duplicates = s.cause.counters.duplicates := by
  simp [handFrameBreak]

/-- BUS is set and the break is counted. -/
@[simp] theorem handClearBreak_sets (s : State) :
    (handClearBreak s).cause.port = s.cause.port ∧
    (handClearBreak s).cause.station = s.cause.station ∧
    (handClearBreak s).cause.bus = true ∧
    (handClearBreak s).cause.reason = s.cause.reason ∧
    (handClearBreak s).cause.rendezvous = s.cause.rendezvous ∧
    (handClearBreak s).cause.receive = s.cause.receive ∧
    (handClearBreak s).cause.complete = s.cause.complete ∧
    (handClearBreak s).cause.mask = s.cause.mask ∧
    (handClearBreak s).cause.int = s.cause.int ∧
    (handClearBreak s).cause.counters.frameBreaks = s.cause.counters.frameBreaks ∧
    (handClearBreak s).cause.counters.clearBreaks = countUp s.cause.counters.clearBreaks ∧
    (handClearBreak s).cause.counters.framesDropped = s.cause.counters.framesDropped ∧
    (handClearBreak s).cause.counters.recordsTruncated = s.cause.counters.recordsTruncated ∧
    (handClearBreak s).cause.counters.recordsMalformed = s.cause.counters.recordsMalformed ∧
    (handClearBreak s).cause.counters.outcomesLost = s.cause.counters.outcomesLost ∧
    (handClearBreak s).cause.counters.duplicates = s.cause.counters.duplicates := by
  simp [handClearBreak]

/-- One counter gains one event. -/
@[simp] theorem countDropped_sets (s : State) :
    (countDropped s).cause.port = s.cause.port ∧
    (countDropped s).cause.station = s.cause.station ∧
    (countDropped s).cause.bus = s.cause.bus ∧
    (countDropped s).cause.reason = s.cause.reason ∧
    (countDropped s).cause.rendezvous = s.cause.rendezvous ∧
    (countDropped s).cause.receive = s.cause.receive ∧
    (countDropped s).cause.complete = s.cause.complete ∧
    (countDropped s).cause.mask = s.cause.mask ∧
    (countDropped s).cause.int = s.cause.int ∧
    (countDropped s).cause.counters.frameBreaks = s.cause.counters.frameBreaks ∧
    (countDropped s).cause.counters.clearBreaks = s.cause.counters.clearBreaks ∧
    (countDropped s).cause.counters.framesDropped = countUp s.cause.counters.framesDropped ∧
    (countDropped s).cause.counters.recordsTruncated = s.cause.counters.recordsTruncated ∧
    (countDropped s).cause.counters.recordsMalformed = s.cause.counters.recordsMalformed ∧
    (countDropped s).cause.counters.outcomesLost = s.cause.counters.outcomesLost ∧
    (countDropped s).cause.counters.duplicates = s.cause.counters.duplicates := by
  simp [countDropped]

/-- One counter gains one event. -/
@[simp] theorem countTruncated_sets (s : State) :
    (countTruncated s).cause.port = s.cause.port ∧
    (countTruncated s).cause.station = s.cause.station ∧
    (countTruncated s).cause.bus = s.cause.bus ∧
    (countTruncated s).cause.reason = s.cause.reason ∧
    (countTruncated s).cause.rendezvous = s.cause.rendezvous ∧
    (countTruncated s).cause.receive = s.cause.receive ∧
    (countTruncated s).cause.complete = s.cause.complete ∧
    (countTruncated s).cause.mask = s.cause.mask ∧
    (countTruncated s).cause.int = s.cause.int ∧
    (countTruncated s).cause.counters.frameBreaks = s.cause.counters.frameBreaks ∧
    (countTruncated s).cause.counters.clearBreaks = s.cause.counters.clearBreaks ∧
    (countTruncated s).cause.counters.framesDropped = s.cause.counters.framesDropped ∧
    (countTruncated s).cause.counters.recordsTruncated = countUp s.cause.counters.recordsTruncated ∧
    (countTruncated s).cause.counters.recordsMalformed = s.cause.counters.recordsMalformed ∧
    (countTruncated s).cause.counters.outcomesLost = s.cause.counters.outcomesLost ∧
    (countTruncated s).cause.counters.duplicates = s.cause.counters.duplicates := by
  simp [countTruncated]

/-- One counter gains one event. -/
@[simp] theorem countMalformed_sets (s : State) :
    (countMalformed s).cause.port = s.cause.port ∧
    (countMalformed s).cause.station = s.cause.station ∧
    (countMalformed s).cause.bus = s.cause.bus ∧
    (countMalformed s).cause.reason = s.cause.reason ∧
    (countMalformed s).cause.rendezvous = s.cause.rendezvous ∧
    (countMalformed s).cause.receive = s.cause.receive ∧
    (countMalformed s).cause.complete = s.cause.complete ∧
    (countMalformed s).cause.mask = s.cause.mask ∧
    (countMalformed s).cause.int = s.cause.int ∧
    (countMalformed s).cause.counters.frameBreaks = s.cause.counters.frameBreaks ∧
    (countMalformed s).cause.counters.clearBreaks = s.cause.counters.clearBreaks ∧
    (countMalformed s).cause.counters.framesDropped = s.cause.counters.framesDropped ∧
    (countMalformed s).cause.counters.recordsTruncated = s.cause.counters.recordsTruncated ∧
    (countMalformed s).cause.counters.recordsMalformed = countUp s.cause.counters.recordsMalformed ∧
    (countMalformed s).cause.counters.outcomesLost = s.cause.counters.outcomesLost ∧
    (countMalformed s).cause.counters.duplicates = s.cause.counters.duplicates := by
  simp [countMalformed]

/-- One counter gains one event. -/
@[simp] theorem countOutcomeLost_sets (s : State) :
    (countOutcomeLost s).cause.port = s.cause.port ∧
    (countOutcomeLost s).cause.station = s.cause.station ∧
    (countOutcomeLost s).cause.bus = s.cause.bus ∧
    (countOutcomeLost s).cause.reason = s.cause.reason ∧
    (countOutcomeLost s).cause.rendezvous = s.cause.rendezvous ∧
    (countOutcomeLost s).cause.receive = s.cause.receive ∧
    (countOutcomeLost s).cause.complete = s.cause.complete ∧
    (countOutcomeLost s).cause.mask = s.cause.mask ∧
    (countOutcomeLost s).cause.int = s.cause.int ∧
    (countOutcomeLost s).cause.counters.frameBreaks = s.cause.counters.frameBreaks ∧
    (countOutcomeLost s).cause.counters.clearBreaks = s.cause.counters.clearBreaks ∧
    (countOutcomeLost s).cause.counters.framesDropped = s.cause.counters.framesDropped ∧
    (countOutcomeLost s).cause.counters.recordsTruncated = s.cause.counters.recordsTruncated ∧
    (countOutcomeLost s).cause.counters.recordsMalformed = s.cause.counters.recordsMalformed ∧
    (countOutcomeLost s).cause.counters.outcomesLost = countUp s.cause.counters.outcomesLost ∧
    (countOutcomeLost s).cause.counters.duplicates = s.cause.counters.duplicates := by
  simp [countOutcomeLost]

/-! ### What is sensed stays, and what JOIN will find of it (log 8) -/

/-- A release of TRG moves the drive alone. -/
@[simp] theorem releaseTrg_sense (s : State) : (releaseTrg s).line.sense = s.line.sense := by
  simp only [releaseTrg]
  split <;> rfl

/-- The removal of a CANCEL from the slot moves no line. -/
@[simp] theorem purgeCancel_sense (tag : Byte) (s : State) :
    (purgeCancel tag s).line.sense = s.line.sense := by
  simp only [purgeCancel]
  repeat' split
  all_goals simp

/-- The close of a view moves the drive of TRG alone. -/
@[simp] theorem closeView_sense (o : RdvOutcome) (closedAt : ClockTime) (s : State) :
    (closeView o closedAt s).line.sense = s.line.sense := by
  simp [closeView]

/-- The view of a station that leaves the bus moves the drive of TRG alone. -/
@[simp] theorem viewLeavesBus_sense (s : State) :
    (viewLeavesBus s).line.sense = s.line.sense := by
  simp only [viewLeavesBus]
  split <;> simp

/-- A station that leaves the bus keeps the levels it sensed last. -/
theorem leaveBus_pins (target : StationState) (reason : StationReason) (s : State) :
    (leaveBus target reason s).pins = PinLevels.ofSense s.line.sense := by
  simp only [leaveBus, handStation, emptySlotAtEntry_keeps, viewLeavesBus_sense]
  split <;> simp

end Sys2Proof.Machine
end

