-- ==== Sys2Proof/Laws/Step.lean ====
section
/-! SUPPORT. What one action does around its change of state: the settling of the cause unit, and the meanings as actions. -/

namespace Sys2Proof.Machine

open Sys2Proof

@[simp] theorem settleCauses_keeps (s : State) :
    (settleCauses s).power = s.power ∧ (settleCauses s).line = s.line ∧
    (settleCauses s).hs = s.hs ∧ (settleCauses s).arb = s.arb ∧ (settleCauses s).fe = s.fe ∧
    (settleCauses s).tm = s.tm ∧ (settleCauses s).rm = s.rm ∧ (settleCauses s).mem = s.mem ∧
    (settleCauses s).rdv = s.rdv ∧ (settleCauses s).ctl = s.ctl ∧
    (settleCauses s).port = s.port ∧ (settleCauses s).pins = s.pins ∧
    (settleCauses s).refPhase = s.refPhase ∧
    (settleCauses s).freeIndex = s.freeIndex ∧ (settleCauses s).pending = s.pending := by
  simp [settleCauses]

/-- Settling changes the cause unit alone. -/
theorem settleCauses_eq (s : State) : settleCauses s = { s with cause := (settleCauses s).cause } :=
  rfl

/-- Settling keeps sticky bits, reason, mask and counters. -/
theorem settleCauses_keepsCauses (s : State) : KeepsCauses s (settleCauses s) := rfl

/-- After settling, every level condition is its owner's and INT agrees. -/
theorem settleCauses_settled (s : State) : LevelsSettled (settleCauses s) := by
  refine ⟨rfl, rfl, rfl, rfl⟩

/-- An action of a running part is its change, settled. -/
theorem act_running {change : State → State} {s : State} (h : s.power = .running) :
    act change s = .next (settleCauses (change s)) := by
  simp [act, h]

/-- A part that is held in reset or without supply takes no action. -/
theorem act_stopped {change : State → State} {s : State} (h : s.power ≠ .running) :
    act change s = .next s := by
  simp [act, h]

/-- An action on what the lines show, at a station that senses them. -/
theorem actOnBus_sensing {change : State → State} {s : State} (h : OnBus s) :
    actOnBus change s = .next (settleCauses (change s)) := by
  simp [actOnBus, act, h.1, h.2]

/-- An action on an edge, at a station that senses the lines. -/
theorem actOnLine_sensing {note : PinLevels → PinLevels} {change : State → State} {s : State}
    (h : OnBus s) : actOnLine note change s = .next (settleCauses (change s)) := by
  simp [actOnLine, act, h.1, h.2]

/-- An action on an edge, at a station that senses nothing: the level at the pin follows and no block is told. -/
theorem actOnLine_quiet {note : PinLevels → PinLevels} {change : State → State} {s : State}
    (hp : s.power = .running) (h : senses s = false) :
    actOnLine note change s = .next (settleCauses { s with pins := note s.pins }) := by
  simp [actOnLine, act, hp, h]

/-- An action of a running part answers the next state of its change. -/
theorem nextIs_of_act {c : Instr} {change : State → State} {s : State}
    (hc : exec c s = act change s) (h : s.power = .running) : NextIs c s (change s) :=
  ⟨settleCauses (change s), by rw [hc, act_running h], settleCauses_eq _,
    settleCauses_keepsCauses _, settleCauses_settled _⟩

/-- An action on the bus answers the next state of its change, at a station that senses the lines. -/
theorem nextIs_of_actOnBus {c : Instr} {change : State → State} {s : State}
    (hc : exec c s = actOnBus change s) (h : OnBus s) : NextIs c s (change s) :=
  ⟨settleCauses (change s), by rw [hc, actOnBus_sensing h], settleCauses_eq _,
    settleCauses_keepsCauses _, settleCauses_settled _⟩

/-- The next state of an action, from what its change comes to. -/
theorem nextIs_of_change {c : Instr} {change : State → State} {s u : State}
    (hc : exec c s = act change s) (h : Running s) (e : change s = u) : NextIs c s u :=
  e ▸ nextIs_of_act hc h

/-- The next state of an action on the bus, from what its change comes to. -/
theorem nextIs_of_busChange {c : Instr} {change : State → State} {s u : State}
    (hc : exec c s = actOnBus change s) (h : OnBus s) (e : change s = u) : NextIs c s u :=
  e ▸ nextIs_of_actOnBus hc h

/-- The next state of an action on an edge, from what its change comes to. -/
theorem nextIs_of_lineChange {c : Instr} (note : PinLevels → PinLevels) {change : State → State}
    {s u : State} (hc : exec c s = actOnLine note change s) (h : OnBus s)
    (e : change s = u) : NextIs c s u :=
  e ▸ ⟨settleCauses (change s), by rw [hc, actOnLine_sensing h], settleCauses_eq _,
    settleCauses_keepsCauses _, settleCauses_settled _⟩

/-- An assertion of OWN, sensed: the next state is the one its change comes to. -/
theorem nextIs_ownAssertionSensed {s u : State} (h : OnBus s) (e : ownAssertionSensed s = u) :
    NextIs .ownAssertionSensed s u :=
  nextIs_of_lineChange (fun p => { p with own := true }) rfl h e

/-- A release of OWN, sensed: the next state is the one its change comes to. -/
theorem nextIs_ownReleaseSensed {req : Bool} {s u : State} (h : OnBus s) (e : ownReleaseSensed req s = u) :
    NextIs (.ownReleaseSensed req) s u :=
  nextIs_of_lineChange (fun p => { p with own := false, req := req }) rfl h e

/-- An idle bus, sensed: the next state is the one its change comes to. -/
theorem nextIs_busIdleSensed {s u : State} (h : OnBus s) (e : busIdleSensed s = u) :
    NextIs .busIdleSensed s u :=
  nextIs_of_lineChange (fun p => { p with own := false, req := false, brk := false }) rfl h e

/-- An assertion of REQ, sensed: the next state is the one its change comes to. -/
theorem nextIs_reqSensed {s u : State} (h : OnBus s) (e : reqSensed s = u) :
    NextIs .reqSensed s u :=
  nextIs_of_lineChange (fun p => { p with req := true }) rfl h e

/-- An assertion of BRK, sensed: the next state is the one its change comes to. -/
theorem nextIs_breakEdge {s u : State} (h : OnBus s) (e : breakEdge s = u) :
    NextIs .breakEdge s u :=
  nextIs_of_lineChange (fun p => { p with brk := true }) rfl h e

/-- A release of BRK, sensed: the next state is the one its change comes to. -/
theorem nextIs_brkRelease {own req : Bool} {s u : State} (h : OnBus s) (e : brkRelease own req s = u) :
    NextIs (.brkRelease own req) s u :=
  nextIs_of_lineChange (fun p => { p with brk := false, own := own, req := req }) rfl h e

/-- A release of TRG, sensed: the next state is the one its change comes to. -/
theorem nextIs_trgReleaseSensed {s u : State} (h : OnBus s) (e : trgReleaseSensed s = u) :
    NextIs .trgReleaseSensed s u :=
  nextIs_of_lineChange (fun p => { p with trg := false }) rfl h e

/-- The beginning of participation, sensed: the next state is the one its change comes to. -/
theorem nextIs_participationBegin {req trg : Bool} {s u : State} (h : OnBus s) (e : participationBegin req trg s = u) :
    NextIs (.participationBegin req trg) s u :=
  nextIs_of_lineChange (fun p => { p with req := req, trg := trg }) rfl h e

/-- A command given to a free port is handed to its owner. -/
theorem giveCommand_free {code : Byte} {parameters : List Byte} {s : State}
    (h : s.port.phase = .command) : giveCommand code parameters s = deliver code parameters s := by
  simp [giveCommand, h]

/-- The port after a command handed over: BUSY with the owner's reply, unless a soft reset was done at once. -/
theorem deliver_reply {code : Byte} {parameters : List Byte} {s : State}
    (h : (answerTo code parameters s).2 ≠ .resetDone) :
    deliver code parameters s =
      { (answerTo code parameters s).1 with
        port := HostPort.busyWith (some code) (answerTo code parameters s).2 } := by
  simp only [deliver]

/-- The next state of a whole command given to a free port, from its owner's answer. -/
theorem nextIs_of_command {c : Instr} {code : Byte} {parameters : List Byte} {s t u : State}
    {r : Reply} (hc : exec c s = act (giveCommand code parameters) s) (h : PortFree s)
    (e : answerTo code parameters s = (t, r)) (hr : r ≠ .resetDone)
    (hu : { t with port := HostPort.busyWith (some code) r } = u) : NextIs c s u := by
  refine nextIs_of_change hc h.1 ?_
  rw [giveCommand_free h.2, deliver_reply (by rw [e]; exact hr), e]
  exact hu

end Sys2Proof.Machine
end

