-- ==== Sys2Proof/Laws/Operations.lean ====
section
/-! SUPPORT. What the larger shared operations do: searches of the frame table, the frames they depend on, freeings, aged flags and the runs of a payload. -/

namespace Sys2Proof.Machine

open Sys2Proof

/-! ### The frame table -/

/-- Every entry number stands in the list of entry numbers. -/
theorem mem_entryNumbers (i : Fin 16) : i ∈ entryNumbers := by
  revert i; decide

/-- The place of an entry number in the list is the number itself. -/
theorem entryNumbers_get (i : Fin 16) :
    entryNumbers[i.val]'(by simp [entryNumbers]) = i := by
  revert i; decide

/-- A search finds nothing when no entry meets the test. -/
theorem findDescriptor_none {s : State} {test : Descriptor → Bool} :
    findDescriptor s test = none ↔ ∀ i : Fin 16, test s.tm.table[i] = false := by
  simp only [findDescriptor, List.find?_eq_none, Bool.not_eq_true]
  exact ⟨fun h i => h i (mem_entryNumbers i), fun h i _ => h i⟩

/-- An entry that is found meets the test. -/
theorem findDescriptor_meets {s : State} {test : Descriptor → Bool} {i : Fin 16}
    (h : findDescriptor s test = some i) : test s.tm.table[i] = true := by
  have e := List.find?_some h
  exact e

/-- A search finds the lowest-numbered entry that meets the test. -/
theorem findDescriptor_lowest {s : State} {test : Descriptor → Bool} {i : Fin 16}
    (h : test s.tm.table[i] = true) (low : ∀ j : Fin 16, j < i → test s.tm.table[j] = false) :
    findDescriptor s test = some i := by
  simp only [findDescriptor]
  rw [List.find?_eq_some_iff_getElem]
  refine ⟨h, i.val, by simp [entryNumbers], entryNumbers_get i, ?_⟩
  intro j hj
  have e := entryNumbers_get ⟨j, by omega⟩
  simp only at e
  rw [e, low ⟨j, by omega⟩ hj]
  rfl

/-- The SELECTED frame depends on the transmit manager alone. -/
theorem selectedFrame_of_tm {s t : State} (h : t.tm = s.tm) :
    selectedFrame t = selectedFrame s := by
  simp only [selectedFrame, findDescriptor, h]

/-- The frame in flight depends on the transmit manager alone. -/
theorem inFlightFrame_of_tm {s t : State} (h : t.tm = s.tm) :
    inFlightFrame t = inFlightFrame s := by
  simp only [inFlightFrame, findDescriptor, h]

/-- The eligible frame depends on the transmit manager, the station controller and the round flag. -/
theorem eligibleFrame_of_parts {s t : State} (h : t.tm = s.tm) (hc : t.ctl = s.ctl)
    (hf : t.arb.roundFlag = s.arb.roundFlag) : eligibleFrame t = eligibleFrame s := by
  simp only [eligibleFrame, eligibleSlot, eligibleNormal, h, hc, hf]

/-- The byte on offer depends on the transmit manager, the packet memory's contents, the station number and the talker's position. -/
theorem currentByte_of_parts {s t : State} (h : t.tm = s.tm) (hc : t.ctl.number = s.ctl.number)
    (hm : t.mem.cells = s.mem.cells) (hn : t.fe.sentBytes = s.fe.sentBytes) :
    currentByte t = currentByte s := by
  simp only [currentByte, frameBytes, inFlightFrame_of_tm h, h, hc, hm, hn]

/-! ### Addresses and bids -/

/-- On lines sensed released a bidder drives its whole bid (R25). -/
theorem bidDrive_zero : ∀ bid : Byte, bidDrive bid 0 = bid := by decide +kernel

/-- A group address or broadcast is no station address (R34). -/
theorem not_station_of_rendezvous : ∀ b : Byte,
    isRendezvousAddress b = true → isStationAddress b = false := by decide +kernel

/-! ### The system slot -/

/-- A purge acts on the slot alone, by the state of a CANCEL for the tag (R77). -/
theorem purgeCancel_eq (tag : Byte) (s : State) :
    purgeCancel tag s = { s with tm.slot := purgedSlot tag s.tm.slot } := by
  have kept : ∀ x, s.tm.slot = x → s = { s with tm.slot := x } := by
    rintro _ rfl; rfl
  cases hs : s.tm.slot with
  | none => simpa [purgeCancel, slotHoldsCancel, purgedSlot, hs] using kept _ hs
  | some f =>
    cases hk : f.kind with
    | cancelFrame g t =>
      by_cases ht : t = tag
      · cases hq : f.state <;>
          simp [purgeCancel, slotHoldsCancel, purgedSlot, removeSlotFrame, setSlot, hs, hk, ht, hq]
      · simpa [purgeCancel, slotHoldsCancel, purgedSlot, hs, hk, ht] using kept _ hs
    | hello => simpa [purgeCancel, slotHoldsCancel, purgedSlot, hs, hk] using kept _ hs
    | openFrame _ _ _ => simpa [purgeCancel, slotHoldsCancel, purgedSlot, hs, hk] using kept _ hs

/-! ### Freeings -/

/-- While no participant waits for room, a freeing moves blocks and nothing else. -/
theorem freeBlocks_unawaited {s : State} (h : NoRoomAwaited s) (blocks : List Nat) :
    freeBlocks blocks s = { s with mem.pool := s.mem.pool ++ blocks } := by
  obtain ⟨hw, hr⟩ := h
  cases blocks with
  | nil => simp [freeBlocks]
  | cons b rest =>
    have hb : s.rm.state ≠ .blockWait := by
      intro e; simp [receptionWaits, e] at hw
    have renew : ∀ t : State, t.rm.state = s.rm.state → renewRequest t = t := by
      intro t ht
      unfold renewRequest
      split
      · rename_i e _; rw [ht] at e; exact absurd e hb
      · rfl
    simp only [freeBlocks]
    rw [renew _ (by simp)]
    simp only [becomeReady]
    rw [if_neg]
    · rfl
    · rintro ⟨hp, hi⟩
      have : isReady s = true := by simpa [isReady, receptionWaits, returnToPool] using hi
      rw [hr (by simpa [returnToPool] using hp)] at this
      cases this

/-- While no participant waits for room, the removal of the head record frees its blocks and its slot and does nothing else. -/
theorem removeHeadRecord_unawaited {s : State} (h : NoRoomAwaited s) {r : Record}
    {rest : List Record} (hr : s.rm.records = r :: rest) :
    removeHeadRecord s =
      { s with rm.records := rest, mem.pool := s.mem.pool ++ r.blocks } := by
  simp only [removeHeadRecord, hr]
  rw [freeBlocks_unawaited (s := { s with rm.records := rest }) h]
  have : s.rm.state ≠ .slotWait := by
    intro e; have := h.1; simp [receptionWaits, e] at this
  simp [this]

/-! ### The abandonment of a frame -/

/-- An arbiter outside STANDBY asks for nothing (R21). -/
theorem askArbiter_waits {s : State} (h : s.arb.phase ≠ .standby) : askArbiter s = s := by
  simp [askArbiter, h]

/-- A frame placed while the arbiter is outside STANDBY waits in the slot (R101). -/
theorem placeSlotFrame_waits {kind : SlotKind} {s : State} (h : s.arb.phase ≠ .standby) :
    placeSlotFrame kind s = { s with tm.slot := some (SlotFrame.placed kind) } := by
  rw [placeSlotFrame, askArbiter_waits (by simpa [setSlot] using h)]
  rfl

/-- A discarded record gives its blocks back, and nothing waits (R136). -/
theorem receptionAbandonment_eq (s : State) :
    receptionAbandonment s = { s with
      rm.state := .idle, rm.policy := none, rm.construction := none, rm.held := none,
      mem.pool := s.mem.pool ++ constructionBlocks s } := rfl

/-- The end of an abandoned OPEN (R61). -/
theorem openAbandoned_eq (s : State) :
    openAbandoned s =
      if s.rdv.view.state = .provisional then
        { s with
          line.drive.trg := s.line.drive.trg && s.ctl.resetInProgress
          rdv.noted := none
          rdv.view := View.absent }
      else { s with rdv.noted := none } := by
  by_cases h : s.rdv.view.state = .provisional <;> cases hr : s.ctl.resetInProgress <;>
    simp [openAbandoned, setView, releaseTrg, h, hr]

/-- The end of a CANCEL that closes no view (R73). -/
theorem liftFreeze_eq {s : State} (h : s.arb.phase ≠ .standby) :
    liftFreeze s =
      if s.rdv.view.state = .waiting ∨ s.rdv.view.state = .armed ∨
          s.rdv.view.state = .cancelling then
        let v := s.rdv.view
        let back : ViewState :=
          if v.state = .cancelling then (if s.line.drive.trg then .waiting else .armed) else v.state
        let arms : Bool := back == .waiting && v.pendingArm
        { s with
          line.drive.trg := s.line.drive.trg && (!arms || s.ctl.resetInProgress)
          rdv.view.state := if arms then .armed else back
          rdv.view.freeze := false
          rdv.view.pendingArm := v.pendingArm && !arms
          rdv.view.cancelSentHere := v.cancelSentHere && v.state != .cancelling
          rdv.view.expiredCancelling := false
          tm.slot :=
            if v.expiredCancelling && s.tm.slot.isNone then
              some
                { state := .queued, kind := .cancelFrame (v.group.getD 0) (v.tag.getD 0),
                  attempts := 0, removal := false }
            else s.tm.slot }
      else s := by
  obtain ⟨pow, ⟨⟨d, k, l, o, w, p, rq, ow, bk, trg⟩, sense, obs, fp, cp, ms, gd, hf, hc, td, dc⟩,
    hs, arb, fe, ⟨tb, ur, no, co, slot, hd⟩, rm, mem,
    ⟨⟨st, tag, gr, ro, oa, dl, ti, fz, pa, tk, eh, cs, fi, cl, ec⟩, noted, outs, rd, fpu⟩, ctl, port, cause, pins, ph, fx, pend⟩ := s
  cases st <;> cases trg <;> cases pa <;> cases ec <;> cases slot <;>
    cases hr : ctl.resetInProgress <;>
    simp [liftFreeze, viewReturned, viewOpen, setView, applyPendingArm, placeDeferredCancel,
      releaseTrg, placeCancel, placeSlotFrame_waits, SlotFrame.placed, hr, h]

/-- An abandonment does what its rules say, where the arbiter cannot ask for the bus (R54). -/
theorem handAbandonment_eq {s : State} (h : s.arb.phase ≠ .standby) :
    handAbandonment s = frameAbandoned s := by
  have hr : (if s.rm.state = .idle then s else receptionAbandonment s).arb = s.arb := by
    split <;> rfl
  simp only [handAbandonment, rendezvousAbandonment, frameAbandoned]
  by_cases ho : s.fe.frame.type = some typeOpen
  · rw [if_pos ho, if_pos ho, openAbandoned_eq]
    by_cases hi : s.rm.state = .idle <;> by_cases hv : s.rdv.view.state = .provisional <;>
      simp [hi, hv, receptionAbandonment_eq]
  · by_cases hc : s.fe.frame.type = some typeCancel
    · rw [if_neg ho, if_pos hc, liftFreeze_eq (by rw [hr]; exact h)]
      simp only [hc, true_and]
      by_cases hi : s.rm.state = .idle
      · simp only [hi, if_true]; split <;> rfl
      · simp only [hi, if_false, receptionAbandonment_eq]; split <;> rfl
    · simp only [ho, hc, false_and, if_false]
      rfl

/-- An abandonment writes the TRG drive, the slot, the receive manager, the pool, the view and the noted open, and reads no more than these, the frame's type and a soft reset in progress; the receive manager is in IDLE after it, and a frame in the slot stays. -/
theorem frameAbandoned_shape (s : State) :
    ∃ trg slot rm pool view noted,
      rm.state = .idle ∧
      (∀ f, s.tm.slot = some f → slot = some f) ∧
      (∀ f, slot = some f → s.tm.slot = none → f.state = .queued) ∧
      ∀ t : State,
        t.line.drive.trg = s.line.drive.trg → t.ctl.resetInProgress = s.ctl.resetInProgress →
        t.tm.slot = s.tm.slot → t.rm = s.rm → t.mem.pool = s.mem.pool →
        t.rdv.view = s.rdv.view → t.fe.frame.type = s.fe.frame.type →
        t.rdv.noted = s.rdv.noted →
        frameAbandoned t = { t with
          line.drive.trg := trg, tm.slot := slot, rm := rm, mem.pool := pool
          rdv.view := view, rdv.noted := noted } := by
  refine ⟨(frameAbandoned s).line.drive.trg, (frameAbandoned s).tm.slot, (frameAbandoned s).rm,
    (frameAbandoned s).mem.pool, (frameAbandoned s).rdv.view, (frameAbandoned s).rdv.noted,
    ?_, ?_, ?_, ?_⟩
  · simp only [frameAbandoned]; split_ifs <;> first | assumption | rfl
  · intro f hf; simp only [frameAbandoned]; split_ifs <;> simp_all
  · intro f; simp only [frameAbandoned]; split_ifs <;> simp_all
    all_goals (intro h; subst h; rfl)
  · intro t h1 h2 h3 h4 h5 h6 h7 h8
    simp only [frameAbandoned, constructionBlocks, h1, h2, h3, h4, h5, h6, h7]
    have same : t = { t with
        line.drive.trg := s.line.drive.trg, tm.slot := s.tm.slot, rm := s.rm
        mem.pool := s.mem.pool, rdv.view := s.rdv.view, rdv.noted := s.rdv.noted } := by
      rw [← h1, ← h3, ← h4, ← h5, ← h6, ← h8]
    rw [same]
    split_ifs <;> rfl

/-! ### The events of one period -/

/-- The free order of events is a rearrangement of them: each is queued once (log 4). -/
theorem freeOrder_perm : ∀ (n index : Nat) (events : List Instr),
    (freeOrder n index events).Perm events
  | _, _, [] => by simp [freeOrder]
  | _, _, [_] => by simp [freeOrder]
  | 0, _, _ :: _ :: _ => by simp [freeOrder]
  | n + 1, index, a :: b :: rest => by
    have hk : Config.tieOrder index % (a :: b :: rest).length < (a :: b :: rest).length :=
      Nat.mod_lt _ (by simp)
    simp only [freeOrder]
    generalize Config.tieOrder index % (a :: b :: rest).length = k at hk
    rw [List.getElem?_eq_getElem hk]
    exact ((freeOrder_perm n (index + 1) _).cons _).trans
      (List.getElem_cons_eraseIdx_perm hk)

/-- An event is among those of a condition exactly when it is the event and the condition holds. -/
@[simp] theorem mem_dueIf {condition : Bool} {event c : Instr} :
    c ∈ dueIf condition event ↔ condition = true ∧ c = event := by
  cases condition <;> simp [dueIf]

/-- A timer has reached a limit exactly when it runs and shows at least the limit. -/
theorem reached_iff {t : Option Nat} {limit : Nat} :
    reached t limit = true ↔ ∃ n, t = some n ∧ limit ≤ n := by
  cases t <;> simp [reached]

/-! ### Records -/

/-- Setting an aged flag replaces one record of the queue. -/
theorem setAgedAt_eq (place : Nat) : ∀ (records : List Record) (r : Record),
    records[place]? = some r →
    setAgedAt place records = records.set place { r with aged := true } := by
  induction place with
  | zero => intro records r h; cases records <;> simp_all [setAgedAt]
  | succ n ih =>
    intro records r h
    cases records with
    | nil => simp at h
    | cons x rest => simp at h; simp [setAgedAt, ih rest r h]

/-- Setting an aged flag changes the length of no queue. -/
theorem setAgedAt_length (place : Nat) : ∀ records : List Record,
    (setAgedAt place records).length = records.length := by
  induction place with
  | zero => intro records; cases records <;> simp [setAgedAt]
  | succ n ih => intro records; cases records <;> simp [setAgedAt, ih]

/-! ### Runs of a payload (R49) -/

/-- Every run has at least one copy. -/
theorem longestRuns_positive : ∀ payload : List Byte, ∀ r ∈ longestRuns payload, 1 ≤ r.2
  | [] => by simp [longestRuns]
  | b :: rest => by
    have ih := longestRuns_positive rest
    simp only [longestRuns]
    split
    · rename_i c n more e
      rw [e] at ih
      split
      · intro r hr
        rcases List.mem_cons.1 hr with rfl | hr
        · simp
        · exact ih r (by simp [hr])
      · intro r hr
        rcases List.mem_cons.1 hr with rfl | hr
        · simp
        · exact ih r hr
    · simp

/-- The runs of a payload, written out, are the payload. -/
theorem longestRuns_expand : ∀ payload : List Byte,
    (longestRuns payload).flatMap (fun r => List.replicate r.2 r.1) = payload
  | [] => rfl
  | b :: rest => by
    have ih := longestRuns_expand rest
    simp only [longestRuns]
    split
    · rename_i c n more e
      rw [e] at ih
      split
      · subst b
        simp only [List.flatMap_cons, List.replicate_succ, List.cons_append] at ih ⊢
        rw [ih]
      · simp only [List.flatMap_cons] at ih ⊢
        simp [ih]
    · rename_i e
      rw [e] at ih
      simp at ih
      subst ih
      simp

end Sys2Proof.Machine
end

