-- ==== Sys2Proof/WellFormed.lean ====
section
/-! DEFINITION. The one check an operand needs beyond its type: a place in the record queue lies among its 32 places. -/

namespace Sys2Proof

/-- Every operand but one is a byte, a level or a strap value, each of which may carry any value of its type. A place in the record queue is one of 32 (R124). -/
def Instr.wellFormed : Instr → Bool
  | .agedFlagSet place => decide (place < Config.recordSlots)
  | _ => true

end Sys2Proof
end

