-- ==== Sys2Proof/Tests/Slice0.lean ====
section
/-! SUPPORT. Tests: the check of operands, the spec's worked examples, and for every statement with hypotheses a state and operands that meet them, clause by clause. -/

namespace Sys2Proof.Tests

open Sys2Proof Sys2Proof.Machine

-- The evaluations go one after another: in parallel each holds a thread of its own.
set_option Elab.async false

/-! ### The check of operands -/

/-- The last place of the record queue is accepted. -/
theorem test_place_31_accepted : (Instr.agedFlagSet 31).wellFormed = true := by decide

/-- A place beyond the 32 of the record queue is refused (R124). -/
theorem test_place_32_refused : (Instr.agedFlagSet 32).wellFormed = false := by decide

/-- No word spells a command (log 33). -/
theorem test_no_word_spells_a_command : decodeTableWord 8 0x03 = none := by decide

/-! ### Small states -/

/-- A station that is ONLINE as number 5, at rest in a free bus. -/
def online : State :=
  { State.reset with
    ctl.state := .online
    ctl.number := 5
    hs.role := .participant .ready
    line.drive.pend := true
    arb.phase := .standby
    arb.roundGap := some 0 }

/-- A station in a frame of another talker. -/
def listening : State :=
  { online with
    arb.phase := .outside
    arb.roundGap := none
    line.sense.own := true
    hs.silence := some 0
    fe.frame := FrameState.started .participant }

/-- A frame of one payload byte for station 3. -/
def oneByte (st : DescriptorState) : Descriptor :=
  { Descriptor.empty with
    state := st, tag := 0x21, destination := 3, length := 1, blocks := [0] }

/-- The station as talker with entry 0 in flight. -/
def talking (p : TalkerPhase) : State :=
  { online with
    arb.phase := .owner
    arb.roundGap := none
    hs.role := .talker p
    hs.stall := some 0
    line.drive.own := true
    line.drive.pend := false
    fe.frame := FrameState.started .talker
    tm.table := (State.reset.tm.table).set 0 { oneByte .inFlight with attempts := 1 }
    mem.pool := State.reset.mem.pool.drop 1 }

/-- The station as talker with this frame of its slot in flight, in its first attempt, its frame state at this type. -/
def sending (kind : SlotKind) (p : TalkerPhase) (type : Option Byte) : State :=
  { talking p with
    tm.table := State.reset.tm.table
    mem.pool := State.reset.mem.pool
    tm.slot := some { state := .inFlight, kind := kind, attempts := 1, removal := false }
    fe.frame := { FrameState.started .talker with position := .payload, type := type } }

/-- The station with this frame QUEUED in its slot. -/
def withSlot (kind : SlotKind) (st : SlotState) (s : State) : State :=
  { s with tm.slot := some { state := st, kind := kind, attempts := 0, removal := false } }

/-- A record of a one-byte frame in block 0. -/
def record : Record :=
  { sequence := 0, source := 3, address := 5, type := typeData, status := .complete,
    fullLength := 1, keptLength := 1, completedAt := 0, blocks := [0], aged := false }

/-- A record under construction with one byte kept. -/
def underway : Construction :=
  { source := 3, address := 5, type := typeData, blocks := [0], keptLength := 1,
    fullLength := 1, status := .complete }

/-- A member's view of the rendezvous with tag 71h in group 42h. -/
def member (st : ViewState) : View :=
  { View.absent with
    state := st, tag := some 0x71, group := some 0x42, role := some .member,
    openedAt := some 0, deadline := some 1, timer := some 0 }

/-- A state with the host port in this phase. -/
def inPhase (p : PortPhase) (s : State) : State := { s with port.phase := p }

/-- A sense of the assertion of BRK. -/
def broken (s : State) : State :=
  { s with line.sense.brk := true, line.measure := .timing 0, hs.role := .none, hs.rejoin := true,
           arb.phase := .outside }

/-- The state a step answers. -/
def after (c : Instr) (s : State) : State :=
  match exec c s with
  | .next t => t
  | _ => s

/-- The state after these commands one after another. -/
def afterAll (s : State) (cs : List Instr) : State := cs.foldl (fun t c => after c t) s

/-! ### Worked examples of the spec -/

/-- Ten equal bytes are one marker and one value; 68 are two pieces, the second of plain bytes (R49). -/
theorem test_run_coding :
    codePayload true (List.replicate 10 0x07) = [controlByte 0x87, dataByte 0x07] ∧
    codePayload true (List.replicate 68 0x00) =
      [controlByte 0xBF, dataByte 0x00, dataByte 0x00, dataByte 0x00] := by decide

/-- The bids of a slot frame, an urgent and a normal frame of station 5 (R24). -/
theorem test_bid_bytes :
    bidByte .slot online = 0x85 ∧ bidByte (.descriptor 0) online = 0x05 := by decide

/-- A bidder keeps driving what the bus shows of its own bid, and is silenced below a higher bid (R25). -/
theorem test_bid_drive : bidDrive 0x4A 0x4A = 0x4A ∧ bidDrive 0x4A 0x85 = 0x00 ∧
    bidDrive 0x45 0x4A = 0x40 := by decide

/-- A station that bids and finds its own bid wins, and takes the bus (R26). -/
theorem test_arbitration :
    (afterAll { online with
        tm.table := online.tm.table.set 0 (oneByte .queued), tm.normal := [0] }
      [.reqSensed, .arbitrationDecision 0x05, .wonHoldEnd]).hs.role = .talker .awaitReady := by
  decide +kernel

/-- SEND, one payload byte, and the result (R102, R103, R171). -/
theorem test_send_and_payload :
    let s := afterAll State.reset
      [.send 0x21 0x00 0x03 0x00 0x00 0x01, .busyEnd, .payloadByteWrite 0xAA, .busyEnd]
    s.port.phase = .result ∧ s.port.result = [0x00] ∧ s.tm.normal = [0] ∧
      s.mem.cells = [(0, 0xAA)] ∧ freeCount s = 127 := by
  dsimp only; decide +kernel

/-- An unknown command code gives INVALID and no PORT cause (R168). -/
theorem test_unknown_code :
    let s := afterAll State.reset [.commandByteWrite 0x99, .busyEnd]
    s.port.result = [0x01] ∧ s.cause.port = false := by
  dsimp only; decide +kernel

/-- A read in COMMAND is a protocol error: it returns 00h and sets PORT (R175). -/
theorem test_protocol_error :
    let s := after (.protocolError .read) State.reset
    s.port.driven = some 0x00 ∧ s.cause.port = true ∧ s.port.phase = .command := by
  dsimp only; decide +kernel

/-- A station joins a bus without listeners: participation begins in the JOIN itself (R149, R150, R116, R151). -/
theorem test_join :
    let s := afterAll State.reset
      [.join, .arbitrationDecision 0x80, .wonHoldEnd, .noListener]
    s.ctl.state = .online ∧ s.cause.reason = some .joined ∧ s.arb.phase = .outside := by
  dsimp only; decide +kernel

/-- A station that joins while OWN is asserted waits for the clear bus, and the clock brings the beginning of participation (R150, log 13). -/
theorem test_join_waits :
    let s := afterAll State.reset [.ownAssertionSensed, .join, .ownReleaseSensed false]
    s.ctl.joinPhase = some .awaitClear ∧ s.line.sense.own = false ∧
      .participationBegin false false ∈ stationDue s := by
  dsimp only; decide +kernel

/-- A talker broken in the set-up of the final byte of its OPEN has had the byte's event: TRG is driven and the view is PROVISIONAL before OFFER (R41, R58, log 36). -/
theorem test_open_before_offer :
    let s := after .talkerReadySensed
      { sending (.openFrame 0x42 0x71 5) .awaitReady (some typeOpen) with
        fe.sentBytes := 5
        fe.frame.payloadCount := some 2 }
    s.rdv.view.state = .provisional ∧ s.line.drive.trg = true ∧ s.line.drive.offer = false := by
  dsimp only; decide +kernel

/-- A joiner that senses a higher bid drives only the bits of its bid above it (R25). -/
theorem test_join_of_a_window :
    (after .reqSensed
      { online with
        tm.table := online.tm.table.set 0 (oneByte .queued), tm.normal := [0]
        line.sense.data := 0x42 }).line.drive.data = 0x00 := by
  decide +kernel

/-- A short DATA frame for station 5 is taken, stored and queued (R40, R128, R133). -/
theorem test_reception :
    let s := afterAll { listening with arb.phase := .outside }
      [.take (controlByte 0x05), .offerReleaseSensed, .take (controlByte 0x03), .offerReleaseSensed,
        .take (controlByte 0x01), .offerReleaseSensed,
        .take { data := 0x2A, kind := false, last := true }, .offerReleaseSensed,
        .completionWindowEnd]
    s.rm.records.map (·.keptLength) = [1] ∧ s.mem.cells = [(0, 0x2A)] ∧ s.cause.receive = true := by
  dsimp only; decide +kernel

/-- A frame break is counted at its release, a clear break at 5 µs (R18). -/
theorem test_break_classification :
    (afterAll online [.breakEdge, .brkRelease false false]).cause.counters.frameBreaks = 1 ∧
    (afterAll online [.breakEdge, .clearBreakClassification, .brkRelease false false]).cause.counters
      = { Counters.zero with clearBreaks := 1 } := by decide +kernel

/-- The clock moves one microsecond in twenty periods (R161). -/
theorem test_clock :
    let period := fun s : State => match step s with | .next t => t | _ => s
    (Nat.repeat period 20 State.reset).ctl.clock = 1 := by
  dsimp only; decide +kernel

/-! ### The hypotheses of the statements, met clause by clause -/

theorem test_hyps_EmptyQueuePassesOnePeriod :
    Running State.reset ∧ State.reset.pending = [] ∧ State.reset.refPhase + 1 < 20 ∧
      20 ≤ ({ State.reset with refPhase := 19 } : State).refPhase + 1 := by decide

/-- A talker at its stall limit, its set-up at this place. -/
def stalled (setUp : Option Nat) : State :=
  { talking .awaitReady with hs.stall := some 4000, hs.setUp := setUp }

/-- At the limit a wait that goes on expires; a set-up has ended its wait, and its offer is due alone (R14, log 19). -/
theorem test_hyps_EmptyQueuePassesOnePeriod_stall :
    (Running (stalled none) ∧ (stalled none).pending = []) ∧
    ¬ Running { State.reset with power := .held } ∧
    dueEvents (stalled none) = [.stallTimerExpiry] ∧
    dueEvents (stalled (some 2)) = [.offerAssert] ∧ dueEvents (stalled (some 1)) = [] := by
  decide +kernel

/-- A byte whose readiness is taken first goes on, and no frame break comes of the wait it ended (R14, log 19). -/
theorem test_readiness_before_the_expiry :
    let s := afterAll (stalled none) [.talkerReadySensed, .stallTimerExpiry, .offerAssert]
    s.hs.role = .talker .offered ∧ s.tm.handed = none ∧ s.line.drive.brk = false ∧
      (after .stallTimerExpiry (stalled none)).line.drive.brk = true := by
  dsimp only; decide +kernel

/-- A change of OFFER taken first starts the silence timer again, and no silence break comes (R15, log 24). -/
theorem test_change_before_the_silence_expiry :
    let s : State := { listening with hs.silence := some 20000 }
    (afterAll s [.take (controlByte 0x05), .silenceTimerExpiry]).line.drive.brk = false ∧
      (after .silenceTimerExpiry s).line.drive.brk = true := by
  dsimp only; decide +kernel

theorem test_hyps_CommandsAnswerAndNeedPower :
    ¬ Running { State.reset with power := .off } ∧ Instr.join ≠ .resetAssert ∧
      Instr.join ≠ .lossOfPower := by decide

theorem test_hyps_ResetGivesPowerOnValues :
    State.reset.power ≠ .off ∧ ({ State.reset with power := .held } : State).power ≠ .running := by
  decide

theorem test_hyps_CommandAndParameterBytes :
    PortFree State.reset ∧ parameterCount 0x01 = some (7 + 1) ∧
    commandOfCode 0x40 = some .causes ∧ parametersOf .causes = 0 ∧
    (ownerAction .causes [] State.reset).2 ≠ .resetDone ∧ commandOfCode 0x00 = none ∧
    (let s := { inPhase .param State.reset with port.toCome := 2, port.command := some 0x02 };
      Running s ∧ s.port.phase = .param ∧ 2 ≤ s.port.toCome) ∧
    (let s : State :=
        { inPhase .param State.reset with port.toCome := 1, port.command := some 0x42 };
      s.port.toCome = 1 ∧ s.port.command = some 0x42 ∧ commandOfCode 0x42 = some .setMask ∧
        (ownerAction .setMask (s.port.parameters ++ [0x3F]) s).2 ≠ .resetDone) := by
  dsimp only; decide +kernel

/-- A SEND of 1024 bytes in its data phase, with this many bytes to come. -/
def filling (toCome : Nat) : State :=
  { State.reset with
    port.phase := .dataIn
    port.dataInCount := toCome
    tm.table := State.reset.tm.table.set 0
      { oneByte .filling with length := 1024, blocks := List.range 16 }
    mem.pool := State.reset.mem.pool.drop 16 }

theorem test_hyps_PayloadBytesFillTheDescriptor :
    (Running (filling 2) ∧ MemoryCanonical (filling 2) ∧ (filling 2).port.phase = .dataIn ∧
      findDescriptor (filling 2) (·.state == .filling) = some 0 ∧
      payloadAddress (filling 2).tm.table[0].blocks ((filling 2).tm.table[0].length - 2) =
        some 1022 ∧ 2 ≤ (filling 2).port.dataInCount) ∧
    payloadAddress (filling 1).tm.table[0].blocks ((filling 1).tm.table[0].length - 1) =
        some 1023 ∧ (filling 1).port.dataInCount = 1 := by decide +kernel

theorem test_hyps_BusyEndsInTheOwnersReply :
    (let s : State := { inPhase .busy State.reset with port.reply := some (.result [0x00]) };
      Running s ∧ s.port.phase = .busy ∧ s.port.reply = some (.result [0x00]) ∧
        s.port.abandonHeld = false ∧
        ({ s with port.abandonHeld := true } : State).port.abandonHeld = true) ∧
    (let s : State :=
        { inPhase .busy (filling 1024) with
          port.reply := some (.dataIn 1024), port.abandonHeld := true };
      s.port.phase = .busy ∧ s.port.reply = some (.dataIn 1024) ∧ s.port.abandonHeld = true ∧
        findDescriptor s (·.state == .filling) = some 0 ∧ NoRoomAwaited s) ∧
    ({ inPhase .busy State.reset with port.reply := some .resetBusy } : State).port.reply =
      some .resetBusy := by
  dsimp only; decide +kernel

/-- The port with a result of these bytes of this command. -/
def reading (command : Byte) (bytes : List Byte) (s : State) : State :=
  { s with port := { HostPort.idle with phase := .result, command := some command, result := bytes } }

theorem test_hyps_ResultBytesAreReadToTheEnd :
    (let s := reading 0x40 [0x00, 0x00, 0x00, 0x00] State.reset;
      Running s ∧ s.port.phase = .result ∧ s.port.result[s.port.position]? = some 0x00 ∧
        s.port.position + 1 < s.port.result.length) ∧
    (let s := reading 0x20 [0x09] State.reset;
      s.port.position + 1 = s.port.result.length ∧ s.port.result.head? ≠ some 0x00) ∧
    (let s := reading 0x12 [0x00] { State.reset with tm.completion := [0] };
      s.port.result.head? = some 0x00 ∧ s.port.command = some 0x12 ∧
        s.tm.completion = 0 :: []) ∧
    (let s := reading 0x33 [0x00] { State.reset with rdv.reading := true };
      s.port.command = some 0x33 ∧ s.rdv.reading = true ∧ State.reset.rdv.reading = false) ∧
    (let s := reading 0x20 [0x00] { State.reset with rm.records := [record] };
      s.port.command = some 0x20 ∧ s.rm.records = record :: [] ∧ 1 ≤ record.keptLength ∧
        NoRoomAwaited s ∧ ({ record with keptLength := 0 } : Record).keptLength = 0) ∧
    (let s := reading 0x03 [0x00] State.reset;
      s.port.command = some 0x03 ∧ commandOfCode 0x03 = some .join ∧
        s.port.position + 1 = s.port.result.length) := by
  dsimp only; decide +kernel

theorem test_hyps_PayloadBytesAreReadInOrder :
    (let s : State :=
        { inPhase .dataOut State.reset with port.dataOutCount := 2, rm.records := [record] };
      Running s ∧ s.port.phase = .dataOut ∧ s.rm.records = record :: [] ∧
        2 ≤ s.port.dataOutCount) ∧
    (let s : State :=
        { inPhase .dataOut State.reset with port.dataOutCount := 1, rm.records := [record] };
      s.port.dataOutCount = 1 ∧ NoRoomAwaited s) := by
  dsimp only; decide +kernel

theorem test_hyps_AbandonByPhase :
    Running State.reset ∧ State.reset.port.phase = .command ∧
    (inPhase .param State.reset).port.phase = .param ∧
    ((inPhase .busy State.reset).port.phase = .busy ∧
      (inPhase .busy State.reset).port.reply ≠ some .resetBusy) ∧
    (inPhase .result State.reset).port.phase = .result ∧
    (inPhase .dataOut State.reset).port.phase = .dataOut ∧
    (let s : State :=
        { inPhase .busy (filling 1024) with
          port.reply := some (.dataIn 1024), port.abandonHeld := true };
      findDescriptor s (·.state == .filling) = some 0 ∧ s.port.reply = some (.dataIn 1024)) ∧
    (let s : State :=
        { inPhase .busy State.reset with
          port.reply := some (.result [0x00]), port.abandonHeld := true };
      s.port.reply = some (.result [0x00]) ∧ s.port.abandonHeld = true) ∧
    ((filling 1).port.phase = .dataIn ∧
      findDescriptor (filling 1) (·.state == .filling) = some 0 ∧ NoRoomAwaited (filling 1)) := by
  dsimp only; decide +kernel

theorem test_hyps_AccessesFollowPinsAndPhase :
    Running State.reset ∧ State.reset.port.reply ≠ some .resetBusy ∧
    (inPhase .dataOut State.reset).port.phase = .dataOut ∧
    State.reset.port.phase = .command ∧
    (let s : State := { inPhase .busy online with port.reply := some .resetBusy };
      Running s ∧ s.port.phase = .busy ∧ s.port.reply = some .resetBusy) := by
  dsimp only; decide +kernel

theorem test_hyps_ConfigureAndSetGroup :
    (PortFree State.reset ∧ State.reset.ctl.state = .offline ∧
      1 ≤ (1 : Byte).toNat ∧ (7 : Byte).toNat ≤ 7 ∧ (96 : Byte).toNat ≤ 96 ∧
      (32 : Byte).toNat ≤ 32 ∧ (9 : Byte).toNat < (1 : Byte).toNat * 10 ∧
      policyOfCode 1 = some .strict ∧ policyOfCode 2 = some .lenient ∧
      transmitHeld State.reset ≤ 128 - (96 : Byte).toNat ∧
      ∀ i : Fin 16, State.reset.tm.table[i].state ≠ .free →
        State.reset.tm.table[i].attempts ≤ (7 : Byte).toNat + 1) ∧
    (PortFree online ∧ online.ctl.state ≠ .offline) ∧
    (0x0F < (0x10 : Byte).toNat ∧ modeOfCode 0x03 = none) ∧
    (1 : Byte).toNat * 10 ≤ (10 : Byte).toNat ∧
    (7 < (8 : Byte).toNat ∧ 96 < (97 : Byte).toNat ∧ 32 < (33 : Byte).toNat ∧
      policyOfCode 0x00 = none ∧ policyOfCode 0x03 = none) ∧
    (let s : State :=
        { State.reset with
          tm.table := State.reset.tm.table.set 0
            { oneByte .queued with blocks := List.range 33, attempts := 2 } };
      PortFree s ∧ s.ctl.state = .offline ∧ 128 - (96 : Byte).toNat < transmitHeld s ∧
        s.tm.table[(0 : Fin 16)].state ≠ .free ∧
        (0 : Byte).toNat + 1 < s.tm.table[(0 : Fin 16)].attempts) ∧
    modeOfCode 0x02 = some (some .lenient) := by
  dsimp only; decide +kernel

theorem test_hyps_JoinAndLeaveByStationState :
    (let s : State := { State.reset with pins.own := true };
      PortFree s ∧ s.ctl.state = .offline ∧ s.pins.own = true ∧
        ({ s with pins.brk := true } : State).pins.brk = true) ∧
    (online.ctl.state ≠ .offline ∧ PortFree online) ∧
    (let s : State := { online with rdv.view := member .waiting };
      s.ctl.state = .online ∧ viewHoldsRendezvous s.rdv.view = true) ∧
    (let s := listening;
      s.ctl.state = .online ∧ viewHoldsRendezvous s.rdv.view = false ∧ s.tm.slot = none ∧
        clearOfBus s = false) ∧
    (let s := withSlot .hello .selected
        { online with ctl.state := .joining, ctl.joinPhase := some .participating,
                      arb.phase := .bidding };
      s.ctl.state = .joining ∧ s.ctl.joinPhase = some .participating ∧
        s.ctl.leaveRequested = false ∧ clearOfBus s = false ∧
        s.tm.slot = some { state := .selected, kind := .hello, attempts := 0, removal := false }) := by
  dsimp only; decide +kernel

/-- At rest and clear of the bus, in this station state and join phase. -/
def clearIn (st : StationState) (p : Option JoinPhase) (leave : Bool) : State :=
  { online with ctl.state := st, ctl.joinPhase := p, ctl.leaveRequested := leave }

theorem test_hyps_ClearStationsGoOffline :
    (let s := clearIn .leaving none false;
      Running s ∧ clearOfBus s = true ∧ s.tm.slot = none ∧ s.ctl.resetInProgress = false ∧
        s.rm.state = .idle ∧ viewHoldsRendezvous s.rdv.view = false ∧ selectedFrame s = none ∧
        s.ctl.state = .leaving ∧ s.port.phase = .command) ∧
    (clearOfBus online = true ∧ selectedFrame online = none) ∧
    (let s := clearIn .joining (some .participating) true;
      clearOfBus s = true ∧ selectedFrame s = none ∧ s.ctl.leaveRequested = true) ∧
    (let s : State :=
        { State.reset with
          ctl.state := .joining, ctl.joinPhase := some .awaitClear, line.sense.brk := true };
      PortFree s ∧ clearOfBus s = false ∧ s.ctl.state = .joining ∧
        s.ctl.joinPhase = some .awaitClear ∧ s.ctl.leaveRequested = false ∧ s.tm.slot = none ∧
        s.rm.state = .idle ∧ viewHoldsRendezvous s.rdv.view = false ∧ selectedFrame s = none) := by
  dsimp only; decide +kernel

theorem test_hyps_JoinAndLeaveByStationState_slot :
    (let s : State :=
        withSlot .hello .queued
          { listening with ctl.state := .joining, ctl.joinPhase := some .participating };
      PortFree s ∧ s.ctl.state = .joining ∧ s.ctl.joinPhase = some .participating ∧
        s.ctl.leaveRequested = false ∧ clearOfBus s = false ∧
        s.tm.slot = some { state := .queued, kind := .hello, attempts := 0, removal := false }) ∧
    (let s := withSlot .hello .queued (clearIn .joining (some .participating) false);
      PortFree s ∧ clearOfBus s = true ∧ s.ctl.resetInProgress = false ∧ s.rm.state = .idle ∧
        viewHoldsRendezvous s.rdv.view = false ∧ selectedFrame s = none ∧
        s.tm.slot = some { state := .queued, kind := .hello, attempts := 0, removal := false }) ∧
    (let s := clearIn .joining (some .participating) true;
      PortFree s ∧ s.ctl.state = .joining ∧ s.ctl.leaveRequested = true) := by
  dsimp only; decide +kernel

theorem test_hyps_SoftResetByStationState :
    (PortFree State.reset ∧ State.reset.ctl.state = .offline) ∧
    ({ State.reset with ctl.state := .faulted } : State).ctl.state = .faulted ∧
    (PortFree online ∧ senses online = true ∧ online.line.guard = none ∧
      online.line.trgDelay = none ∧ online.line.clearPulse = none) := by decide +kernel

/-- A frame table with no FREE entry: sixteen frames of these tags. -/
def fullTable : State :=
  { State.reset with
    tm.table := Vector.ofFn (fun i : Fin 16 =>
      { Descriptor.empty with state := .queued, tag := BitVec.ofNat 8 i.val })
    tm.normal := entryNumbers }

theorem test_hyps_SendTakesTheLowestFreeEntry :
    (PortFree State.reset ∧ State.reset.ctl.state ≠ .faulted ∧
      1024 = (word16 0x04 0x00).toNat ∧ classOfCode 0x01 = some .urgent ∧
      isDefinedAddress 0x7F = true ∧ (0x7F : Byte) ≠ numberByte State.reset.ctl.number ∧
      (∀ j : Fin 16, State.reset.tm.table[j].state ≠ .free → State.reset.tm.table[j].tag ≠ 0x21) ∧
      State.reset.tm.table[(0 : Fin 16)].state = .free ∧
      (∀ j : Fin 16, j < 0 → State.reset.tm.table[j].state ≠ .free) ∧
      transmitHeld State.reset + (1024 + 63) / 64 ≤
        128 - State.reset.ctl.configuration.receiveReserve ∧
      (1024 + 63) / 64 ≤ State.reset.mem.pool.length ∧
      1 ≤ (word16 0x00 0x01).toNat ∧ (word16 0x00 0x00).toNat = 0) ∧
    ({ State.reset with ctl.state := .faulted } : State).ctl.state = .faulted ∧
    (classOfCode 0x02 = none ∧ isDefinedAddress 0x50 = false ∧
      (0x05 : Byte) = numberByte online.ctl.number ∧ 1024 < (word16 0x04 0x01).toNat) ∧
    (fullTable.tm.table[(15 : Fin 16)].state ≠ .free ∧
      fullTable.tm.table[(15 : Fin 16)].tag = 0x0F) ∧
    (∀ i : Fin 16, fullTable.tm.table[i].state ≠ .free ∧ fullTable.tm.table[i].tag ≠ 0x10) ∧
    (let s : State := { State.reset with mem.pool := [] };
      s.tm.table[(0 : Fin 16)].state = .free ∧
        s.mem.pool.length < ((word16 0x00 0x01).toNat + 63) / 64) := by
  dsimp only; decide +kernel

/-- The reset state with entry 0 as this frame. -/
def holding (st : DescriptorState) : State :=
  { State.reset with
    tm.table := State.reset.tm.table.set 0 (oneByte st)
    mem.pool := State.reset.mem.pool.drop 1 }

theorem test_hyps_WithdrawByDescriptorState :
    (PortFree State.reset ∧
      ∀ i : Fin 16, State.reset.tm.table[i].state ≠ .free → State.reset.tm.table[i].tag ≠ 0x21) ∧
    ((holding .selected).tm.table[(0 : Fin 16)].tag = 0x21 ∧
      (∀ j : Fin 16, j < 0 → (holding .selected).tm.table[j].state ≠ .free →
        (holding .selected).tm.table[j].tag ≠ 0x21) ∧
      (holding .selected).tm.table[(0 : Fin 16)].state = .selected) ∧
    (holding .filling).tm.table[(0 : Fin 16)].state = .filling ∧
    ((holding .queued).tm.table[(0 : Fin 16)].state = .queued ∧
      NoRoomAwaited (holding .queued)) := by decide +kernel

theorem test_hyps_ReadersCopyTheHead :
    PortFree State.reset ∧
    (let s : State :=
        { State.reset with
          tm.completion := [0]
          tm.table := State.reset.tm.table.set 0
            { oneByte .done with outcome := some .sent, completedAt := some 7 } };
      s.tm.completion = 0 :: [] ∧ s.tm.table[(0 : Fin 16)].outcome = some .sent ∧
        s.tm.table[(0 : Fin 16)].completedAt = some 7) ∧
    State.reset.tm.completion = [] ∧ State.reset.rm.records = [] ∧
    State.reset.rdv.outcomes = [] ∧
    ({ State.reset with rm.records := [record] } : State).rm.records = record :: [] ∧
    (let s : State := { State.reset with rdv.outcomes := [viewRecord (member .armed) .fired 9] };
      s.rdv.outcomes = viewRecord (member .armed) .fired 9 :: []) := by
  dsimp only; decide +kernel

/-- A participant that waits in PREPARING with a byte in its latch. -/
def preparing (st : ReceptionState) : State :=
  { listening with
    hs.role := .participant .preparing
    hs.latch := some { byte := dataByte 1, position := .type }
    fe.frame.position := .payload
    fe.frame.type := some typeData
    fe.frame.addressed := some true
    rm.state := st
    rm.policy := some .strict }

theorem test_hyps_DiscardRemovesTheHeadRecord :
    (let s : State := { State.reset with rm.records := [record] };
      PortFree s ∧ s.rm.records = record :: [] ∧ NoRoomAwaited s) ∧
    State.reset.rm.records = [] ∧
    (let s : State := { preparing .slotWait with rm.records := List.replicate 32 record };
      PortFree s ∧ s.rm.records = record :: List.replicate 31 record ∧
        (List.replicate 31 record).length < 32 ∧ s.hs.role = .participant .preparing ∧
        s.line.sense.offer = false ∧
        s.hs.latch = some { byte := dataByte 1, position := .type } ∧
        (dataByte 1).last = false ∧ s.rm.state = .slotWait ∧ s.rm.construction = none) ∧
    (let s : State :=
        { preparing .blockWait with
          rm.records := [record]
          rm.held := some { value := 5, count := 1 }
          rm.construction := some { underway with blocks := [], keptLength := 0 }
          mem.pool := [] };
      s.rm.state = .blockWait ∧ s.rm.held = some { value := 5, count := 1 } ∧
        (0 : Nat) = 64 * ([] : List Nat).length ∧ s.mem.pool = [] ∧ record.blocks = 0 :: []) := by
  dsimp only; decide +kernel

theorem test_hyps_OpenAndCancelPlaceAFrame :
    (PortFree State.reset ∧ State.reset.ctl.state ≠ .online) ∧
    (PortFree online ∧ online.ctl.state = .online ∧ isRendezvousAddress 0x3F = false ∧
      isRendezvousAddress 0x40 = true ∧ isRendezvousAddress 0x4F = true ∧
      isRendezvousAddress 0x7F = true ∧ online.rdv.view.state = .none ∧ online.tm.slot = none) ∧
    (member .waiting).state ≠ .none ∧
    (online.rdv.view.state ≠ .waiting ∧ online.rdv.view.state ≠ .armed) ∧
    (let s : State := { online with rdv.view := member .armed };
      PortFree s ∧ s.rdv.view.state = .armed ∧ s.rdv.view.closing = false ∧
        s.rdv.view.group = some 0x42 ∧ s.rdv.view.tag = some 0x71 ∧ s.tm.slot = none) := by
  dsimp only; decide +kernel

theorem test_hyps_ArmByView :
    (PortFree State.reset ∧ State.reset.ctl.state ≠ .online) ∧
    (let s : State := { online with rdv.view := member .waiting };
      PortFree s ∧ s.ctl.state = .online ∧ s.ctl.resetInProgress = false ∧
        s.rdv.view.state = .waiting ∧ s.rdv.view.freeze = false ∧ s.rdv.view.closing = false) ∧
    ({ member .waiting with freeze := true } : View).freeze = true ∧
    (let s : State :=
        { online with rdv.view := member .cancelling, line.drive.trg := true };
      s.rdv.view.state = .cancelling ∧ s.line.drive.trg = true) ∧
    (let s : State := { online with rdv.view := member .cancelling };
      s.rdv.view.state = .cancelling ∧ s.line.drive.trg = false) ∧
    online.rdv.view.state = .none := by
  dsimp only; decide +kernel

theorem test_hyps_CauseUnitCommands : PortFree State.reset ∧ PortFree online := by decide

theorem test_hyps_HighestCauseIsTheTopEnabledOne :
    (highestCause { CauseUnit.powerOn with port := true, complete := true, mask := 0x21 }).getLsbD 5
      = true := by decide

theorem test_hyps_EligibleFrameIsRequested :
    (let s := withSlot .hello .queued online;
      s.ctl.state = .online ∧ s.tm.slot = some (SlotFrame.placed .hello) ∧
        (SlotFrame.placed .hello).state = .queued ∧ s.arb.phase = .standby ∧
        eligibleFrame s = some .slot) ∧
    (let s : State := { online with tm.urgent := [1], tm.normal := [0] };
      s.tm.slot = none ∧ s.tm.urgent = 1 :: []) ∧
    (let s : State := { online with arb.roundFlag := true };
      s.tm.urgent = [] ∧ s.arb.roundFlag = true ∧ eligibleFrame s = none) ∧
    (let s : State := { online with tm.normal := [0] };
      s.tm.urgent = [] ∧ s.arb.roundFlag = false ∧ s.tm.normal = 0 :: []) ∧
    (online.tm.urgent = [] ∧ online.tm.normal = []) ∧
    (let s : State := clearIn .joining (some .participating) false;
      s.ctl.state = .joining ∧ s.ctl.joinPhase = some .participating ∧ s.tm.slot = none ∧
        (withSlot .hello .queued s).tm.slot = some (SlotFrame.placed .hello)) ∧
    (clearIn .joining (some .awaitClear) false).ctl.joinPhase ≠ some .participating := by
  dsimp only; decide +kernel

/-- A descriptor and a slot frame that an arbiter may ask for, in STANDBY. -/
theorem test_hyps_selected_frame :
    (let s : State :=
        { online with tm.table := online.tm.table.set 0 (oneByte .queued), tm.normal := [0] };
      OnBus s ∧ s.arb.phase = .standby ∧ eligibleFrame s = some (.descriptor 0) ∧
        s.hs.role = .participant .ready ∧ s.hs.silence = none) ∧
    (let s := withSlot (.cancelFrame 0x42 0x71) .queued online;
      eligibleFrame s = some .slot ∧
        s.tm.slot = some
          { state := .queued, kind := .cancelFrame 0x42 0x71, attempts := 0, removal := false }) := by
  dsimp only; decide +kernel

theorem test_hyps_BidBytesAndTheirDrive :
    online.tm.table[(0 : Fin 16)].cls = .normal ∧ (7 : Nat) < 8 ∧
    (0x80 : Byte).getLsbD 7 = true := by decide +kernel

theorem test_hyps_ArbiterFollowsTheBus :
    (let s : State := { online with arb.phase := .outside };
      OnBus s ∧ s.arb.phase = .outside ∧ s.line.sense.brk = false ∧
        s.fe.frame.position = .none) ∧
    (OnBus online ∧ online.arb.phase = .standby ∧ online.hs.role = .participant .ready ∧
      online.hs.silence = none ∧ eligibleFrame online = none ∧ online.arb.roundGap ≠ none) ∧
    eligibleFrame { online with tm.normal := [0] } = some (.descriptor 0) ∧
    (let s : State := { online with arb.phase := .bidding, arb.bid := some 0x05 };
      s.arb.phase = .bidding ∧ s.arb.bid = some 0x05) := by
  dsimp only; decide +kernel

/-- The station bidding with entry 0, or with its slot frame. -/
def bidding : State :=
  { online with
    arb.phase := .bidding
    arb.bid := some 0x05
    tm.table := online.tm.table.set 0 (oneByte .selected) }

theorem test_hyps_DecisionWinsOrLoses :
    OnBus bidding ∧ bidding.arb.phase = .bidding ∧ bidding.arb.bid = some 0x05 ∧
    (0x85 : Byte) ≠ 0x05 ∧ selectedFrame bidding = some (.descriptor 0) ∧
    (withSlot .hello .selected bidding).tm.slot =
      some { state := .selected, kind := .hello, attempts := 0, removal := false } := by
  decide +kernel

theorem test_hyps_WinnerTakesTheBus :
    (let s : State := { bidding with arb.phase := .won };
      OnBus s ∧ s.arb.phase = .won ∧ selectedFrame s = some (.descriptor 0)) ∧
    (withSlot .hello .selected bidding).tm.slot =
      some { state := .selected, kind := .hello, attempts := 0, removal := false } := by
  dsimp only; decide +kernel

theorem test_hyps_ParticipantTakesOrHolds :
    (OnBus listening ∧ listening.hs.role = .participant .ready ∧
      isDuplicateSource listening.ctl.number (controlByte 0x05) listening.fe.frame = false) ∧
    (let s : State := { listening with fe.frame.position := .source };
      OnBus s ∧ s.hs.role = .participant .ready ∧ s.line.drive.pend = true ∧
        isDuplicateSource s.ctl.number (controlByte 0x05) s.fe.frame = true ∧
        s.line.sense.brk = false ∧ s.line.guard = none ∧ s.line.framePulse = none) := by
  dsimp only; decide +kernel

theorem test_hyps_BystanderObservesWithoutPacing :
    (let s : State := { listening with hs.role := .bystander };
      OnBus s ∧ s.hs.role = .bystander) ∧
    (OnBus (broken listening) ∧ (broken listening).hs.role = .none) := by
  dsimp only; decide +kernel

/-- A frame begun while BRK is asserted is parsed at a station in NONE, and its end abandons it (R4, R11, R33, log 42). -/
theorem test_frame_under_a_break :
    let s := afterAll (broken online)
      [.ownAssertionSensed, .observe (controlByte 0x05), .observe (controlByte 0x03)]
    s.hs.role = .none ∧ s.fe.frame.position = .type ∧ s.fe.frame.address = some 0x05 ∧
      s.fe.frame.source = some 0x03 ∧
      (afterAll s [.observe { controlByte 0x01 with last := true }, .offerReleaseSensed]).fe.frame
        = FrameState.absent := by
  dsimp only; decide +kernel

/-- A participant that has taken this byte at this position. -/
def taken (b : BusByte) (p : Position) : State :=
  { listening with
    hs.role := .participant .taken
    hs.latch := some { byte := b, position := p }
    line.observed := some b
    line.sense.offer := true }

theorem test_hyps_ParticipantPreparesOrStandsAside :
    (let s : State := { taken (controlByte 1) .type with fe.frame.addressed := some false };
      OnBus s ∧ s.hs.role = .participant .taken ∧ s.line.observed = some (controlByte 1) ∧
        s.hs.latch = some { byte := controlByte 1, position := .type } ∧
        s.fe.frame.position ≠ .none ∧ s.line.heldFrame = [] ∧ (controlByte 1).last = false ∧
        s.fe.frame.addressed = some false) ∧
    (Position.source ≠ .type ∧ receptionWaits (taken (controlByte 5) .source) = false) ∧
    (let b : BusByte := { data := 1, kind := false, last := true };
      b.last = true ∧ isTalker (taken b .payload) = false) ∧
    (let s : State :=
        { taken (controlByte 1) .type with
          fe.frame.position := .payload
          fe.frame.addressed := some true
          fe.frame.type := some typeData
          fe.frame.address := some 0x42
          fe.frame.source := some 3
          ctl.subscriptions := State.reset.ctl.subscriptions.set 2 (some .strict) };
      OnBus s ∧ s.hs.role = .participant .taken ∧ s.line.observed = some (controlByte 1) ∧
        s.fe.frame.addressed = some true ∧ s.fe.frame.type = some typeData ∧
        s.rm.state = .idle ∧ s.rm.construction = none ∧ s.fe.frame.address = some 0x42 ∧
        s.fe.frame.source = some 3 ∧ isGroupAddress 0x42 = true ∧
        (s.ctl.subscriptions[groupOf 0x42]).getD .lenient = .strict ∧
        s.rm.records.length < 32 ∧
        32 ≤ ({ s with rm.records := List.replicate 32 record } : State).rm.records.length ∧
        isGroupAddress 0x7F = false ∧ s.ctl.configuration.broadcast = .lenient ∧
        isGroupAddress 0x05 = false ∧ s.ctl.configuration.unicast = .lenient) ∧
    (typeOpen ≠ typeData ∧ receptionWaits (taken (controlByte 2) .type) = false) := by
  dsimp only; decide +kernel

/-- A bystander in the payload of a DATA frame for another station. -/
def standingBy : State :=
  { listening with
    hs.role := .bystander
    line.drive.pend := false
    line.sense.offer := true
    line.observed := some (dataByte 1)
    fe.frame.position := .payload
    fe.frame.type := some typeData
    fe.frame.addressed := some false }

theorem test_hyps_ParticipantPreparesOrStandsAside_bystander :
    (OnBus standingBy ∧ standingBy.hs.role = .bystander ∧
      standingBy.line.observed = some (dataByte 1) ∧ standingBy.fe.frame.position ≠ .none ∧
      standingBy.line.heldFrame = [] ∧ (dataByte 1).last = false) ∧
    ({ dataByte 1 with last := true } : BusByte).last = true ∧
    (let s := broken standingBy;
      OnBus s ∧ s.hs.role = .none ∧ s.arb.phase ≠ .standby ∧
        s.line.observed = some (dataByte 1) ∧ s.fe.frame.position ≠ .none ∧
        s.line.heldFrame = []) := by
  dsimp only; decide +kernel

theorem test_hyps_OwnBeginsAndAbandonsTheFrame_bystander :
    (OnBus standingBy ∧ standingBy.fe.frame.position ≠ .none ∧
      standingBy.arb.phase ≠ .standby ∧ standingBy.hs.role = .bystander) ∧
    (let s := broken standingBy;
      OnBus s ∧ s.fe.frame.position ≠ .none ∧ s.arb.phase ≠ .standby ∧ s.hs.role = .none) := by
  dsimp only; decide +kernel

/-- At the release of OWN a PROVISIONAL view is NONE with TRG released, a noted open is gone, and a participant with a record to come is at rest again, its blocks in the pool (R54, R61, R136). -/
theorem test_abandoned_frames :
    (let s := after (.ownReleaseSensed true)
        { listening with
          fe.frame.position := .payload, fe.frame.type := some typeOpen
          rdv.view := member .provisional, line.drive.trg := true };
      s.rdv.view = View.absent ∧ s.line.drive.trg = false ∧ s.hs.role = .participant .ready) ∧
    (let s := after (.ownReleaseSensed true)
        { preparing .truncated with rm.construction := some { underway with blocks := [127] } };
      s.rm.state = .idle ∧ s.mem.pool.getLast? = some 127 ∧ s.hs.role = .participant .ready ∧
        s.line.drive.wait = false) := by
  dsimp only; decide +kernel

theorem test_hyps_RecordJoinsAtCompletion_bystander :
    (let s : State := { standingBy with hs.window := some 2, line.sense.offer := false };
      OnBus s ∧ s.hs.window ≠ none ∧ s.hs.role = .bystander ∧
        s.fe.frame.type ≠ some typeOpen ∧ s.fe.frame.type ≠ some typeCancel ∧
        s.fe.frame.addressed ≠ some true) ∧
    (let s : State :=
        { taken { controlByte 0x02 with last := true } .type with
          hs.role := .participant .preparing
          hs.window := some 2
          fe.frame.position := .type
          fe.frame.type := some typeHello };
      OnBus s ∧ s.hs.window ≠ none ∧ s.hs.role = .participant .preparing ∧ s.rm.state = .idle ∧
        s.fe.frame.type ≠ some typeOpen ∧ s.fe.frame.type ≠ some typeCancel ∧
        s.fe.frame.type ≠ some typeData ∧ s.line.sense.offer = true ∧
        s.line.observed = some { controlByte 0x02 with last := true } ∧
        listening.line.sense.offer = false) := by
  dsimp only; decide +kernel

theorem test_hyps_TalkerOffersAndWithdraws :
    (OnBus (talking .awaitReady) ∧ currentByte (talking .awaitReady) = some (controlByte 3) ∧
      (talking .awaitReady).hs.stall ≠ none ∧
      (talking .awaitReady).hs.role = .talker .awaitReady ∧
      (talking .awaitReady).hs.setUp = none ∧
      (parseByte 5 State.reset.ctl.subscriptions (controlByte 3)
        (talking .awaitReady).fe.frame).2 = .nothing) ∧
    (let s : State :=
        { sending (.openFrame 0x42 0x71 5) .awaitReady (some typeOpen) with
          fe.sentBytes := 5, fe.frame.payloadCount := some 2 };
      OnBus s ∧ currentByte s = some { data := 5, kind := false, last := true } ∧
        s.hs.stall ≠ none ∧
        (parseByte s.ctl.number s.ctl.subscriptions { data := 5, kind := false, last := true }
          s.fe.frame).2 = .openFinal 0 0 0 5) ∧
    ({ talking .awaitReady with hs.setUp := some 2 } : State).hs.setUp ≠ none ∧
    ((talking .offered).hs.role = .talker .offered ∧ (controlByte 3).last = false) ∧
    currentByte { talking .offered with fe.sentBytes := 3 } =
      some { data := 0, kind := false, last := true } := by
  dsimp only; decide +kernel

theorem test_hyps_NoListenerEndsTheAttempt :
    (let s := talking .awaitReady;
      OnBus s ∧ s.hs.role = .talker .awaitReady ∧ s.hs.stall ≠ none ∧ s.tm.handed = none ∧
        s.fe.frame.type ≠ some typeOpen ∧ s.fe.frame.type ≠ some typeCancel ∧
        s.rm.state = .idle ∧ inFlightFrame s = some (.descriptor 0)) ∧
    (let s := sending .hello .awaitReady none;
      OnBus s ∧ s.ctl.resetInProgress = false ∧ s.rm.state = .idle ∧
        s.rdv.outcomes.length < 4 ∧
        s.tm.slot = some { state := .inFlight, kind := .hello, attempts := 1, removal := false }) ∧
    (let s : State :=
        { sending (.openFrame 0x42 0x71 5) .awaitReady (some typeOpen) with
          rdv.view := { member .provisional with role := some .opener } };
      s.fe.frame.type = some typeOpen ∧ s.rdv.view.state = .provisional ∧
        State.reset.rdv.view.state ≠ .provisional ∧ s.ctl.resetInProgress = false ∧
        s.rdv.outcomes.length < 4) ∧
    (let s : State :=
        { sending (.cancelFrame 0x42 0x71) .awaitReady (some typeCancel) with
          rdv.view := member .cancelling };
      s.fe.frame.type ≠ some typeOpen ∧ s.rdv.view.state = .cancelling ∧
        s.rdv.view.group = some 0x42 ∧ s.rdv.view.tag = some 0x71 ∧
        s.rdv.view.role = some .member ∧ s.rdv.outcomes.length < 4) := by
  dsimp only; decide +kernel

theorem test_hyps_TalkerCompletesAndReleasesOwn :
    (let s : State :=
        { talking .closing with hs.window := some 2, fe.frame.type := some typeData };
      OnBus s ∧ s.hs.role = .talker .closing ∧ s.hs.window ≠ none ∧ s.hs.complete = false ∧
        s.tm.handed = none ∧ inFlightFrame s = some (.descriptor 0) ∧
        s.fe.frame.type = some typeData ∧ s.rm.state = .idle) ∧
    (let s := sending .hello .closing (some typeHello);
      OnBus s ∧ s.hs.complete = false ∧ s.tm.handed = none ∧ s.rm.state = .idle ∧
        s.fe.frame.type = some typeHello ∧ s.ctl.resetInProgress = false ∧
        s.tm.slot = some { state := .inFlight, kind := .hello, attempts := 1, removal := false }) ∧
    (let s : State :=
        { sending (.openFrame 0x42 0x71 5) .closing (some typeOpen) with
          fe.frame.payloadCount := some 3
          rdv.view := { member .provisional with role := some .opener } };
      s.fe.frame.type = some typeOpen ∧ s.fe.frame.verdict = some .good ∧
        s.fe.frame.payloadCount = some (2 + 1) ∧ s.rdv.view.state = .provisional) ∧
    (let s : State :=
        { sending (.cancelFrame 0x42 0x71) .closing (some typeCancel) with
          fe.frame.payloadCount := some 1
          rdv.view := member .cancelling };
      s.fe.frame.type = some typeCancel ∧ s.fe.frame.verdict = some .good ∧
        s.fe.frame.payloadCount = some (0 + 1) ∧ s.rdv.view.state = .cancelling ∧
        s.rdv.view.group = some 0x42 ∧ s.rdv.view.tag = some 0x71 ∧
        s.rdv.view.role = some .member ∧ s.rdv.outcomes.length < 4) ∧
    ({ talking .closing with hs.complete := true } : State).hs.complete = true := by
  dsimp only; decide +kernel

theorem test_hyps_OwnBeginsAndAbandonsTheFrame :
    (let s : State := { online with arb.phase := .outside };
      OnBus s ∧ participates s = true ∧ frameInProgress s = false ∧ s.arb.phase = .outside ∧
        s.fe.frame.position = .none ∧ online.arb.phase = .standby) ∧
    (participates (broken online) = true ∧ frameInProgress (broken online) = false ∧
      (broken online).hs.role = .none) ∧
    (participates bidding = true ∧ frameInProgress bidding = false ∧
      bidding.arb.phase = .bidding ∧ selectedFrame bidding = some (.descriptor 0) ∧
      (withSlot .hello .selected bidding).tm.slot =
        some { state := .selected, kind := .hello, attempts := 0, removal := false }) ∧
    (frameInProgress listening = true ∧
      participates (clearIn .joining (some .awaitClear) false) = false) ∧
    isTalker (talking .offered) = true ∧
    (let s : State := { preparing .storing with rm.construction := some underway };
      OnBus s ∧ s.fe.frame.position ≠ .none ∧ s.arb.phase ≠ .standby ∧
        s.hs.role = .participant .preparing) := by
  dsimp only; decide +kernel

theorem test_hyps_TimerExpiryBeginsAFrameBreak :
    (let s := stalled none;
      OnBus s ∧ s.line.sense.brk = false ∧ s.line.guard = none ∧ s.line.framePulse = none ∧
        s.hs.stall = some 4000 ∧ s.ctl.configuration.stallLimit * 200 ≤ 4000 ∧
        s.hs.setUp = none ∧ s.hs.role = .talker .awaitReady ∧ s.tm.handed = none ∧
        (talking .offered).hs.role = .talker .offered) ∧
    (let s : State := { listening with hs.silence := some 20000 };
      s.hs.silence = some 20000 ∧ s.ctl.configuration.silenceLimit * 2000 ≤ 20000) ∧
    (OnBus (stalled (some 2)) ∧ (stalled (some 2)).hs.setUp ≠ none ∧
      3999 < (stalled none).ctl.configuration.stallLimit * 200 ∧
      19999 < listening.ctl.configuration.silenceLimit * 2000) := by
  dsimp only; decide +kernel

theorem test_hyps_BreaksBeginAndEnd :
    (broken online).line.sense.brk = true ∧ online.line.sense.brk = false ∧
    (let s : State := { online with line.guard := some 0, line.heldFrame := [.silence] };
      OnBus s ∧ s.line.guard ≠ none ∧ s.line.heldFrame = .silence :: [] ∧
        s.line.heldClear = false ∧ s.line.framePulse = none) ∧
    ({ online with line.framePulse := some 0 } : State).line.framePulse ≠ none ∧
    ({ online with line.clearPulse := some 0 } : State).line.clearPulse ≠ none ∧
    (let s : State := { online with line.trgDelay := some 6, line.delayedClear := true };
      s.line.trgDelay ≠ none ∧ s.line.delayedClear = true ∧ s.line.guard = none ∧
        s.line.clearPulse = none ∧
        ({ s with line.guard := some 1 } : State).line.guard ≠ none) ∧
    (let s : State := { online with line.guard := some 4, line.heldClear := true };
      s.line.heldFrame = [] ∧ s.line.heldClear = true ∧ s.line.trgDelay = none ∧
        s.line.clearPulse = none ∧
        ({ s with line.trgDelay := some 1 } : State).line.trgDelay ≠ none) ∧
    (online.line.heldFrame = [] ∧ online.line.delayedClear = false) := by
  dsimp only; decide +kernel

theorem test_hyps_BreakEdge_participants :
    (OnBus online ∧ online.line.sense.brk = false ∧ online.hs.role = .participant .ready ∧
      online.fe.frame.position = .none ∧ online.arb.phase = .standby ∧
      ({ online with arb.phase := .outside } : State).arb.phase = .outside) ∧
    (bidding.arb.phase = .bidding ∧ bidding.fe.frame.position = .none ∧
      selectedFrame bidding = some (.descriptor 0) ∧
      (withSlot .hello .selected bidding).tm.slot =
        some { state := .selected, kind := .hello, attempts := 0, removal := false }) ∧
    (let s : State := { State.reset with ctl.state := .joining, ctl.joinPhase := some .awaitClear };
      OnBus s ∧ s.line.sense.brk = false ∧ s.hs.role = .none ∧ s.arb.phase = .off) ∧
    (OnBus listening ∧ listening.hs.role = .participant .ready ∧
      listening.fe.frame.position ≠ .none ∧ listening.arb.phase = .outside ∧
      standingBy.hs.role = .bystander ∧ standingBy.fe.frame.position ≠ .none ∧
      standingBy.arb.phase = .outside) := by
  dsimp only; decide +kernel

/-- A break edge in the header ends the frame and no more; one in a DATA frame for another station, in SLOT_WAIT and in an OPEN that is only noted leaves the station in NONE with nothing kept (R17, R54, R61). -/
theorem test_break_edge_at_every_frame :
    (let s := after .breakEdge listening;
      s.hs.role = .none ∧ s.fe.frame = FrameState.absent ∧ s.line.drive.pend = false) ∧
    (after .breakEdge standingBy).fe.frame = FrameState.absent ∧
    (after .breakEdge (preparing .slotWait)).rm.state = .idle ∧
    (after .breakEdge
      { standingBy with
        fe.frame.type := some typeOpen
        rdv.noted := some { address := 0x42, source := 3, tag := 0x71, deadline := 0 } }).rdv.noted
      = none := by
  dsimp only; decide +kernel

/-- A fire that waits is held at the break edge, with the sensed time it has (R66). -/
theorem test_break_edge_holds_the_fire :
    let s : State := { online with rdv.view := { member .armed with fire := .pending 7 2 } }
    s.rdv.view.fire = .pending 7 2 ∧ (after .breakEdge s).rdv.view.fire = .held 7 ∧
      (after .breakEdge s).rdv.view.state = .armed := by
  dsimp only; decide +kernel

theorem test_hyps_BreakEdge_talkers :
    (let s := talking .offered;
      OnBus s ∧ s.line.sense.brk = false ∧ s.hs.role = .talker .offered ∧
        s.arb.phase = .owner ∧ s.hs.complete = false ∧ inFlightFrame s = some (.descriptor 0) ∧
        s.tm.handed = none ∧
        s.tm.table[(0 : Fin 16)].attempts ≤ s.ctl.configuration.retryLimit ∧
        ({ s with ctl.configuration.retryLimit := 0 } : State).ctl.configuration.retryLimit <
          s.tm.table[(0 : Fin 16)].attempts ∧
        ({ s with hs.complete := true } : State).hs.complete = true) ∧
    (let s : State := { sending .hello .offered none with fe.sentBytes := 1 };
      s.hs.role = .talker .offered ∧ s.fe.sentBytes = 1 ∧ s.tm.handed = none ∧
        s.ctl.resetInProgress = false ∧ (sending .hello .offered none).fe.sentBytes ≠ 1 ∧
        ({ s with tm.handed := some .clash } : State).tm.handed = some .clash ∧
        s.tm.slot = some { state := .inFlight, kind := .hello, attempts := 1, removal := false } ∧
        1 ≤ s.ctl.configuration.retryLimit) ∧
    (let s := sending (.openFrame 0x42 0x71 5) .offered none;
      s.tm.slot = some
          { state := .inFlight, kind := .openFrame 0x42 0x71 5, attempts := 1, removal := false } ∧
        s.rdv.outcomes.length < 4 ∧ s.tm.handed = none) ∧
    (let s : State := { sending (.cancelFrame 0x42 0x71) .offered none with
        ctl.configuration.retryLimit := 0 };
      s.tm.slot = some
          { state := .inFlight, kind := .cancelFrame 0x42 0x71, attempts := 1, removal := false } ∧
        s.tm.handed = none ∧ s.ctl.configuration.retryLimit < 1 ∧
        s.line.trgDelay = none ∧ s.line.guard = none ∧ s.fe.comparator.any (·.last) = false ∧
        s.line.clearPulse = none) := by
  dsimp only; decide +kernel

/-- A talker broken within its OPEN or its CANCEL gives up what its own bytes began: the PROVISIONAL view is NONE with TRG released, the CANCELLING view WAITING again, and the frame is tried again (R17, R61, R73). -/
theorem test_break_edge_at_the_talker :
    (let s := after .breakEdge
        { sending (.openFrame 0x42 0x71 5) .offered (some typeOpen) with
          rdv.view := { member .provisional with role := some .opener }
          line.drive.trg := true };
      s.rdv.view = View.absent ∧ s.line.drive.trg = false ∧
        s.tm.slot.map (·.state) = some .queued) ∧
    (let s := after .breakEdge
        { sending (.cancelFrame 0x42 0x71) .offered (some typeCancel) with
          rdv.view := { member .cancelling with cancelSentHere := true }
          line.drive.trg := true };
      s.rdv.view.state = .waiting ∧ s.rdv.view.cancelSentHere = false ∧
        s.line.drive.trg = true ∧ s.tm.slot.map (·.state) = some .queued) := by
  dsimp only; decide +kernel

/-- A CANCEL out of attempts, its LAST byte on offer. -/
def lastOffered (type : Option Byte) : State :=
  { sending (.cancelFrame 0x42 0x71) .offered type with
    ctl.configuration.retryLimit := 0
    fe.comparator := some { data := 0x71, kind := false, last := true } }

theorem test_hyps_BreakEdge_last_on_offer :
    let s := lastOffered none
    OnBus s ∧ s.line.sense.brk = false ∧ s.hs.role = .talker .offered ∧
      s.fe.comparator.any (·.last) = true ∧ s.tm.handed = none ∧
      s.ctl.configuration.retryLimit < 1 ∧ s.line.trgDelay = none := by
  dsimp only; decide +kernel

/-- The clear break of a CANCEL broken with its LAST byte on offer waits for the guard (R16, R78, log 23). -/
theorem test_guard_at_the_break_edge :
    let s := after .breakEdge (lastOffered none)
    s.line.guard = some 0 ∧ s.line.heldClear = true ∧ s.line.drive.brk = false := by
  dsimp only; decide +kernel

theorem test_hyps_ClearBreakMarksTheView :
    (OnBus (broken online) ∧ (broken online).line.measure = .timing 0 ∧
      (broken online).tm.slot = none ∧ (broken online).rdv.view.state = .none) ∧
    (member .waiting).state = .waiting ∧
    ({ View.absent with state := .observing } : View).state = .observing := by decide +kernel

/-- A CANCEL for the tag of a view, QUEUED and IN_FLIGHT, for another tag, and another frame in the slot. -/
theorem test_purged_slot :
    (let f : SlotFrame :=
        { state := .queued, kind := .cancelFrame 0x42 0x71, attempts := 1, removal := false };
      purgedSlot 0x71 (some f) = none ∧ purgedSlot 0x72 (some f) = some f ∧
        purgedSlot 0x71 (some { f with state := .inFlight }) =
          some { f with state := .inFlight, removal := true } ∧
        purgedSlot 0x71 (some { f with kind := .hello }) = some { f with kind := .hello }) ∧
    purgedSlot 0x71 none = none := by decide

/-- The states in which views close, with a CANCEL for their tag in the slot. -/
theorem test_hyps_closing_with_a_cancel_in_the_slot :
    (let s : State :=
        withSlot (.cancelFrame 0x42 0x71) .queued
          { broken online with rdv.view := member .armed };
      OnBus s ∧ s.line.measure = .timing 0 ∧ s.rdv.view.state = .armed ∧
        s.rdv.view.tag = some 0x71 ∧ purgedSlot 0x71 s.tm.slot = none) ∧
    (let s : State :=
        withSlot (.cancelFrame 0x42 0x71) .queued
          { broken online with
            ctl.pendingFault := some .clash
            rdv.view := member .waiting };
      s.ctl.pendingFault = some .clash ∧ s.rm.state = .idle ∧ selectedFrame s = none ∧
        purgedSlot 0x71 s.tm.slot = none) ∧
    (let s : State :=
        { sending (.cancelFrame 0x42 0x71) .awaitReady none with
          hs.role := .participant .ready, rdv.view := { member .armed with fire := .pending 7 4 } };
      OnBus s ∧ s.rdv.view.fire = .pending 7 4 ∧ s.ctl.resetInProgress = false ∧
        (purgedSlot 0x71 s.tm.slot).any (·.removal) = true) := by
  dsimp only; decide +kernel

theorem test_hyps_BreakReleaseReturnsOrLeaves :
    (let s := broken online;
      OnBus s ∧ s.line.sense.brk = true ∧ s.line.measure = .timing 0 ∧
        s.ctl.pendingFault = none ∧ s.ctl.resetInProgress = false ∧ s.hs.rejoin = true ∧
        s.arb.phase = .outside ∧ s.rdv.view.closing = false ∧ s.rdv.view.fire = .clear) ∧
    (let s : State :=
        { broken online with
          line.measure := .clear, rdv.view := { member .armed with closing := true } };
      s.line.measure = .clear ∧ s.rdv.view.closing = true ∧ s.rdv.view.group = some 0x42 ∧
        s.rdv.view.tag = some 0x71 ∧ s.rdv.view.role = some .member ∧ s.tm.slot = none ∧
        s.rdv.outcomes.length < 4) ∧
    (let s : State :=
        { broken online with rdv.view := { member .armed with fire := .held 7 } };
      s.rdv.view.closing = false ∧ s.rdv.view.fire = .held 7) ∧
    (let s : State :=
        { broken online with ctl.pendingFault := some .clash, rdv.view := member .waiting };
      s.ctl.pendingFault = some .clash ∧ s.rm.state = .idle ∧ s.tm.slot = none ∧
        selectedFrame s = none ∧ s.rdv.view.fire = .clear ∧ s.rdv.view.state = .waiting ∧
        online.rdv.view = View.absent) ∧
    (clearBreakHeld { broken online with ctl.resetInProgress := true } = false ∧
      clearBreakHeld { broken online with line.delayedClear := true } = true) := by
  dsimp only; decide +kernel

theorem test_hyps_ReadbackFindsAClash :
    let s : State := { talking .offered with fe.comparator := some (controlByte 3) }
    OnBus s ∧ s.hs.role = .talker .offered ∧ s.fe.comparator = some (controlByte 3) ∧
      s.ctl.resetInProgress = false ∧ controlByte 7 ≠ controlByte 3 ∧ s.tm.handed = none ∧
      s.line.sense.brk = false ∧ s.line.guard = none ∧ s.line.framePulse = none := by
  dsimp only; decide +kernel

theorem test_hyps_BuiltDataFrameIsHeardWhole :
    isDefinedAddress 0x4F = true ∧ isStationAddress 0x1F = true ∧
    (List.replicate 1024 (0 : Byte)).length ≤ 1024 := by decide +kernel

theorem test_hyps_BuiltSystemFramesAreHeard :
    isRendezvousAddress 0x40 = true ∧ isStationAddress 0x00 = true := by decide

/-- A frame state at this position of a frame of this type, with these counts. -/
def atPosition (p : Position) (type : Option Byte) (count length run : Option Nat) : FrameState :=
  { FrameState.started .participant with
    position := p, type := type, address := some 0x42, source := some 3, tag := some 0x71,
    deadlineHigh := some 0, payloadCount := count, expandedLength := length, runCount := run }

theorem test_hyps_error_bytes :
    ((atPosition .address none none none none).position = .address ∧
      (atPosition .source none none none none).position = .source) ∧
    (let f := atPosition .type none none none none;
      f.position = .type ∧ f.type = none ∧ f.address = some 0x42 ∧ f.source = some 3 ∧
        f.verdict = some .good) ∧
    (let f := atPosition .payload (some typeData) none (some 1024) none;
      f.verdict = some .good ∧ f.type = some typeData ∧ f.expandedLength = some 1024 ∧
        f.position = .payload ∧ (0x80 : Byte) ≤ 0xBF ∧ (0x7F : Byte) < 0x80 ∧
        (0xBF : Byte) < 0xC0 ∧ 1024 < 1024 + 1) ∧
    (let f := atPosition .afterMarker (some typeData) none (some 961) (some 63);
      f.position = .afterMarker ∧ f.runCount = some 63 ∧ 961 + 63 ≤ 1024 ∧ 1024 < 962 + 63) ∧
    (let f := atPosition .payload (some typeOpen) (some 0) none none;
      f.position = .payload ∧ f.verdict = some .good ∧ f.type = some typeOpen ∧
        f.payloadCount = some 0) ∧
    ((atPosition .payload (some typeOpen) (some 2) none none).payloadCount = some 2 ∧
      (atPosition .payload (some typeOpen) (some 3) none none).payloadCount = some 3) ∧
    (atPosition .payload (some typeCancel) (some 1) none none).payloadCount = some 1 ∧
    ({ atPosition .payload (some typeData) none (some 0) none with
        verdict := some .malformed }).verdict ≠ some .good := by
  dsimp only; decide +kernel

/-- A marker code of no run length, a 1025th byte, an OPEN cut after two bytes, and a CANCEL of two (R44, R45, R46). -/
theorem test_error_bytes :
    let parse := parseByte 5 State.reset.ctl.subscriptions
    (parse (controlByte 0xC0) (atPosition .payload (some typeData) none (some 0) none)).2 = .malformed ∧
    (parse (dataByte 1) (atPosition .payload (some typeData) none (some 1024) none)).2 = .malformed ∧
    (parse { dataByte 1 with last := true }
        (atPosition .payload (some typeOpen) (some 1) none none)).2 = .malformed ∧
    (parse (dataByte 1) (atPosition .payload (some typeCancel) (some 0) none none)).1.verdict =
      some .malformed ∧
    (parse (controlByte 0x05) (atPosition .type none none none none)).1.verdict = some .headerError := by
  dsimp only; decide +kernel

/-- A participant in READY inside the payload of a DATA frame, one byte kept. -/
def storing : State :=
  { listening with
    fe.frame.position := .payload
    fe.frame.type := some typeData
    fe.frame.addressed := some true
    fe.frame.expandedLength := some 1023
    rm.state := .storing
    rm.construction := some underway }

theorem test_hyps_CopiesAreStored :
    (OnBus storing ∧ MemoryCanonical storing ∧ storing.hs.role = .participant .ready ∧
      storing.fe.frame.position = .payload ∧ storing.fe.frame.verdict = some .good ∧
      storing.fe.frame.type = some typeData ∧ storing.fe.frame.addressed = some true ∧
      storing.fe.frame.expandedLength = some 1023 ∧ (1023 : Nat) < 1024 ∧
      storing.rm.state = .storing ∧ storing.rm.construction = some underway ∧
      underway.keptLength < 64 * underway.blocks.length ∧
      payloadAddress underway.blocks underway.keptLength = some 1) ∧
    (let c : Construction := { underway with keptLength := 64, fullLength := 64 };
      let s : State := { storing with rm.construction := some c, rm.policy := some .strict }
      s.rm.construction = some c ∧ c.keptLength = 64 * c.blocks.length ∧
        s.mem.pool = 0 :: (List.range 128).drop 1 ∧ s.rm.policy = some .strict ∧
        ({ s with mem.pool := [] } : State).mem.pool = [] ∧ storing.rm.policy ≠ some .strict) := by
  dsimp only; decide +kernel

theorem test_hyps_CopiesAreStored_malformed :
    (OnBus storing ∧ storing.hs.role = .participant .ready ∧
      storing.fe.frame.position = .payload ∧
      (parseByte storing.ctl.number storing.ctl.subscriptions (controlByte 0x00)
        storing.fe.frame).2 = .malformed ∧
      storing.fe.frame.type = some typeData ∧ storing.fe.frame.addressed = some true ∧
      storing.rm.state = .storing ∧ storing.rm.construction = some underway) ∧
    (let s : State := { storing with rm.state := .dropping, rm.construction := none };
      s.rm.state = .dropping ∧ s.hs.role = .participant .ready) ∧
    (let s : State :=
        { storing with fe.frame.position := .afterMarker, fe.frame.runCount := some 3 };
      s.fe.frame.position = .afterMarker ∧
        (parseByte s.ctl.number s.ctl.subscriptions (controlByte 0x80) s.fe.frame).2 =
          .malformed) := by
  dsimp only; decide +kernel

theorem test_hyps_RecordJoinsAtCompletion :
    (let s : State :=
        { preparing .storing with
          hs.window := some 2
          fe.frame.source := some 3
          fe.frame.address := some 5
          fe.frame.expandedLength := some 1
          rm.construction := some underway };
      OnBus s ∧ s.hs.window ≠ none ∧ s.hs.role = .participant .preparing ∧
        s.line.sense.offer = false ∧ s.fe.frame.position ≠ .none ∧
        s.fe.frame.type = some typeData ∧ s.fe.frame.addressed = some true ∧
        s.fe.frame.expandedLength = some 1 ∧ s.fe.frame.source = some 3 ∧
        s.fe.frame.address = some 5 ∧ s.rm.state = .storing ∧
        s.rm.construction = some underway) ∧
    (preparing .truncated).rm.state = .truncated ∧ (preparing .malformed).rm.state = .malformed ∧
    (preparing .dropping).rm.state = .dropping ∧
    (let s : State := { preparing .idle with rm.policy := none };
      s.rm.state = .idle ∧ s.rm.construction = none ∧ s.rm.policy = none ∧ s.rm.held = none ∧
        s.rm.records.length < 32 ∧
        32 ≤ ({ s with rm.records := List.replicate 32 record } : State).rm.records.length ∧
        s.fe.frame.position ≠ .type ∧
        ({ s with fe.frame.position := .type } : State).fe.frame.position = .type) := by
  dsimp only; decide +kernel

theorem test_hyps_AgedFlagIsSet :
    (let s : State :=
        { State.reset with ctl.configuration.ageLimit := 1, rm.records := [record] };
      Running s ∧ s.ctl.configuration.ageLimit ≠ 0 ∧ s.rm.records[0]? = some record) ∧
    State.reset.ctl.configuration.ageLimit = 0 := by
  dsimp only; decide +kernel

/-- A participant in READY before the final byte of an OPEN. -/
def beforeOpenEnds : State :=
  { listening with
    fe.frame.position := .payload
    fe.frame.type := some typeOpen
    fe.frame.payloadCount := some 2
    fe.frame.address := some 0x42
    fe.frame.source := some 3
    fe.frame.tag := some 0x71
    fe.frame.deadlineHigh := some 0 }

theorem test_hyps_OpenMakesAMember :
    (let s := beforeOpenEnds;
      OnBus s ∧ s.hs.role = .participant .ready ∧ s.fe.frame.position = .payload ∧
        s.fe.frame.verdict = some .good ∧ s.fe.frame.type = some typeOpen ∧
        s.fe.frame.payloadCount = some 2 ∧ s.fe.frame.address = some 0x42 ∧
        s.fe.frame.source = some 3 ∧ s.fe.frame.tag = some 0x71 ∧
        s.fe.frame.deadlineHigh = some 0 ∧ s.ctl.state = .online ∧ s.rdv.view.state = .none) ∧
    ({ beforeOpenEnds with rdv.view := member .armed } : State).rdv.view.state ≠ .none ∧
    (let s : State :=
        { beforeOpenEnds with
          hs.role := .participant .preparing
          hs.window := some 2
          fe.frame.payloadCount := some 3
          rdv.view := member .provisional };
      OnBus s ∧ s.hs.window ≠ none ∧ s.hs.role = .participant .preparing ∧
        s.line.sense.offer = false ∧ s.fe.frame.position ≠ .none ∧
        s.fe.frame.type = some typeOpen ∧ s.fe.frame.verdict = some .good ∧
        s.fe.frame.payloadCount = some (2 + 1) ∧ s.rdv.view.state = .provisional ∧
        s.tm.slot = none ∧ s.rm.state = .idle) := by
  dsimp only; decide +kernel

/-- The open a bystander or participant has noted. -/
def noted : NotedOpen := { address := 0x42, source := 3, tag := 0x71, deadline := 0 }

/-- A bystander in the completion window of an OPEN of this verdict that it has noted. -/
def openEnds (verdict : Verdict) (view : View) : State :=
  { beforeOpenEnds with
    hs.role := .bystander
    line.drive.pend := false
    hs.window := some 2
    fe.frame.payloadCount := some 3
    fe.frame.verdict := some verdict
    rdv.noted := some noted
    rdv.view := view }

theorem test_hyps_OpenMakesAMember_others :
    (let s : State := { beforeOpenEnds with hs.role := .bystander };
      OnBus s ∧ s.hs.role = .bystander ∧ s.fe.frame.payloadCount = some 2) ∧
    (let s := openEnds .good View.absent;
      OnBus s ∧ s.hs.window ≠ none ∧ s.hs.role = .bystander ∧ s.fe.frame.position ≠ .none ∧
        s.fe.frame.type = some typeOpen ∧ s.rm.state = .idle ∧
        s.fe.frame.verdict = some .good ∧ s.fe.frame.payloadCount = some (2 + 1) ∧
        s.rdv.view.state = .none ∧ s.rdv.noted = some noted ∧
        (∀ f ∈ s.tm.slot, f.state ≠ .queued)) ∧
    (let s := withSlot (.openFrame 0x42 0x33 9) .queued (openEnds .good View.absent);
      s.tm.slot = some
          { state := .queued, kind := .openFrame 0x42 0x33 9, attempts := 0, removal := false } ∧
        s.rdv.outcomes.length < 4 ∧ ({ s with rdv.noted := none } : State).rdv.noted = none) ∧
    ((openEnds .good (member .armed)).rdv.view.state ≠ .none ∧
      (openEnds .good (member .armed)).rdv.view.state ≠ .provisional) ∧
    (openEnds .malformed View.absent).fe.frame.verdict ≠ some .good ∧
    ({ openEnds .good View.absent with fe.frame.payloadCount := some 0 } : State).fe.frame.payloadCount
      = some 0 := by
  dsimp only; decide +kernel

/-- A bystander that noted an open enters OBSERVING at its end, and its QUEUED own OPEN is lost (R60). -/
theorem test_noted_open_is_observed :
    let s := after .completionWindowEnd
      (withSlot (.openFrame 0x42 0x33 9) .queued (openEnds .good View.absent))
    s.rdv.view.state = .observing ∧ s.rdv.noted = none ∧ s.tm.slot = none ∧
      s.rdv.outcomes.map (·.reason) = [some .lost] := by
  dsimp only; decide +kernel

/-- A noted open ends with its frame, also when that ends malformed (R55, R61). -/
theorem test_noted_open_ends_with_its_frame :
    let s := after .completionWindowEnd (openEnds .malformed View.absent)
    s.rdv.noted = none ∧ s.rdv.view.state = .none := by
  dsimp only; decide +kernel

/-- A participant in READY inside a CANCEL, at this position, its view in this state. -/
def cancelling (p : Position) (type : Option Byte) (count : Option Nat) (st : ViewState) : State :=
  { listening with
    fe.frame.position := p
    fe.frame.type := type
    fe.frame.payloadCount := count
    fe.frame.address := some 0x42
    rdv.view := member st }

theorem test_hyps_Cancel_bytes :
    (let s := cancelling .type none none .waiting;
      OnBus s ∧ s.rdv.view.group = some 0x42 ∧ s.rdv.view.tag = some 0x71 ∧
        s.rdv.view.role = some .member ∧ s.rdv.view.state = .waiting ∧
        (0x43 : Byte) ≠ 0x42 ∧ s.rdv.view.fire = .clear ∧
        s.fe.frame.verdict = some .good ∧ s.fe.frame.address = some 0x42 ∧
        s.fe.frame.position = .type ∧ isRendezvousAddress 0x42 = true ∧
        (parseByte s.ctl.number s.ctl.subscriptions (controlByte 0x03) s.fe.frame).2 =
          .cancelHeader 0x42 ∧
        s.hs.role = .participant .ready ∧
        isDuplicateSource s.ctl.number (controlByte 0x03) s.fe.frame = false) ∧
    ({ member .armed with fire := .pending 0 0 } : View).fire ≠ .clear ∧
    (let s := cancelling .payload (some typeCancel) (some 0) .armed;
      s.rdv.view.state = .armed ∧ s.fe.frame.payloadCount = some 0 ∧
        (parseByte s.ctl.number s.ctl.subscriptions
          { data := 0x71, kind := false, last := true } s.fe.frame).2 = .cancelFinal 0x42 0x71 ∧
        ({ s with hs.role := .bystander } : State).hs.role = .bystander) ∧
    (let s : State :=
        { sending (.cancelFrame 0x42 0x71) .awaitReady none with
          fe.sentBytes := 2
          fe.frame.position := .type
          fe.frame.address := some 0x42
          rdv.view := member .waiting };
      s.hs.role = .talker .awaitReady ∧ s.hs.setUp = none ∧ s.hs.stall ≠ none ∧
        currentByte s = some (controlByte 0x03) ∧
        (parseByte s.ctl.number s.ctl.subscriptions (controlByte 0x03) s.fe.frame).2 =
          .cancelHeader 0x42) ∧
    (let s : State :=
        { sending (.cancelFrame 0x42 0x71) .awaitReady (some typeCancel) with
          fe.sentBytes := 3
          fe.frame.payloadCount := some 0
          fe.frame.address := some 0x42
          rdv.view := member .waiting };
      currentByte s = some { data := 0x71, kind := false, last := true } ∧
        (parseByte s.ctl.number s.ctl.subscriptions
          { data := 0x71, kind := false, last := true } s.fe.frame).2 =
            .cancelFinal 0x42 0x71) := by
  dsimp only; decide +kernel

theorem test_hyps_Cancel_ends :
    (let s : State :=
        { cancelling .payload (some typeCancel) (some 1) .cancelling with
          hs.role := .participant .preparing
          hs.window := some 2
          rdv.outcomes := List.replicate 3 (viewRecord (member .armed) .fired 9) };
      OnBus s ∧ s.rdv.view.state = .cancelling ∧ s.hs.window ≠ none ∧
        s.hs.role = .participant .preparing ∧ s.line.sense.offer = false ∧
        s.rm.state = .idle ∧ s.fe.frame.position ≠ .none ∧ s.fe.frame.type = some typeCancel ∧
        s.fe.frame.verdict = some .good ∧ s.fe.frame.payloadCount = some 1 ∧ s.tm.slot = none ∧
        s.ctl.resetInProgress = false ∧ s.rdv.outcomes.length < 4) ∧
    (let s : State :=
        { cancelling .payload (some typeCancel) (some 1) .waiting with
          hs.role := .participant .preparing
          hs.window := some 2
          fe.frame.verdict := some .malformed };
      s.fe.frame.verdict = some .malformed ∧ s.rdv.view.expiredCancelling = false ∧
        s.rdv.view.state = .waiting ∧ s.rdv.view.pendingArm = false ∧
        ({ s with rdv.view.pendingArm := true } : State).rdv.view.pendingArm = true) ∧
    (let s : State :=
        { cancelling .payload (some typeCancel) (some 1) .cancelling with
          line.drive.trg := true, rdv.view.expiredCancelling := true };
      OnBus s ∧ s.hs.role = .participant .ready ∧ s.fe.frame.position ≠ .none ∧
        s.rm.state = .idle ∧ s.fe.frame.type = some typeCancel ∧
        s.rdv.view.state = .cancelling ∧ s.line.drive.trg = true ∧
        s.rdv.view.pendingArm = false ∧ s.rdv.view.expiredCancelling = true ∧
        s.tm.slot = none ∧ s.arb.phase = .outside ∧ listening.line.drive.trg = false ∧
        (member .cancelling).expiredCancelling = false) := by
  dsimp only; decide +kernel

theorem test_hyps_Cancel_ends_with_a_cancel_in_the_slot :
    let s : State :=
      withSlot (.cancelFrame 0x42 0x71) .queued
        { cancelling .payload (some typeCancel) (some 1) .cancelling with
          hs.role := .participant .preparing
          hs.window := some 2 }
    OnBus s ∧ s.rdv.view.state = .cancelling ∧ s.fe.frame.payloadCount = some 1 ∧
      s.hs.role = .participant .preparing ∧ s.rdv.outcomes.length < 4 ∧
      purgedSlot 0x71 s.tm.slot = none := by
  dsimp only; decide +kernel

/-- A station at the completion of a CANCEL of this verdict for group 42h and tag 71h, in this role, with this view. -/
def cancelEnds (role : Role) (verdict : Verdict) (view : View) : State :=
  { cancelling .payload (some typeCancel) (some 1) .none with
    hs.role := role
    hs.window := some 2
    fe.frame.verdict := some verdict
    fe.frame.tag := some 0x71
    rdv.view := view }

/-- An OBSERVING view that knows this tag of group 42h. -/
def observing (tag : Byte) : View :=
  { View.absent with
    state := .observing, tag := some tag, group := some 0x42, tagKnown := true }

theorem test_hyps_Cancel_ends_elsewhere :
    (let s := cancelEnds .bystander .good (member .cancelling);
      OnBus s ∧ s.hs.window ≠ none ∧ s.hs.role = .bystander ∧ s.rm.state = .idle ∧
        s.fe.frame.position ≠ .none ∧ s.fe.frame.type = some typeCancel ∧
        s.rdv.view.state = .cancelling ∧ s.rdv.outcomes.length < 4) ∧
    (let s := cancelEnds (.participant .preparing) .good View.absent;
      OnBus s ∧ s.hs.role = .participant .preparing ∧ s.line.sense.offer = false ∧
        s.rdv.view.state = .none ∧ (member .provisional).state = .provisional) ∧
    (let s := cancelEnds .bystander .good (observing 0x71);
      s.rdv.view.state = .observing ∧ s.fe.frame.verdict = some .good ∧
        s.fe.frame.payloadCount = some 1 ∧ s.fe.frame.address = some 0x42 ∧
        s.fe.frame.tag = some 0x71 ∧ s.rdv.view.group = some 0x42 ∧
        s.rdv.view.tag = some 0x71 ∧ s.rdv.view.tagKnown = true) ∧
    ((observing 0x72).tagKnown = true ∧ (observing 0x72).tag ≠ some 0x71 ∧
      ({ View.absent with state := .observing } : View).tagKnown = false ∧
      (cancelEnds .bystander .malformed (observing 0x71)).fe.frame.verdict ≠ some .good) := by
  dsimp only; decide +kernel

/-- A well-formed CANCEL of its tag closes an OBSERVING view without a record, at a bystander as at a participant; another tag's and a malformed one leave it (R72, R84). -/
theorem test_cancel_at_an_observer :
    let ends (s : State) : ViewState × Nat :=
      let t := after .completionWindowEnd s
      (t.rdv.view.state, t.rdv.outcomes.length)
    ends (cancelEnds .bystander .good (observing 0x71)) = (.none, 0) ∧
      ends (cancelEnds (.participant .preparing) .good (observing 0x71)) = (.none, 0) ∧
      ends (cancelEnds .bystander .good (observing 0x72)) = (.observing, 0) ∧
      ends (cancelEnds .bystander .malformed (observing 0x71)) = (.observing, 0) := by
  dsimp only; decide +kernel

theorem test_hyps_ArmedViewFires :
    (let s : State := { online with rdv.view := member .armed };
      OnBus s ∧ s.rdv.view.state = .armed ∧ s.rdv.view.closing = false ∧
        s.rdv.view.fire = .clear) ∧
    ({ View.absent with state := .observing } : View).state = .observing ∧
    online.rdv.view.state = .none ∧
    (let s : State := { online with rdv.view := { member .armed with fire := .pending 7 4 } };
      s.rdv.view.fire = .pending 7 4 ∧ s.rdv.view.group = some 0x42 ∧
        s.rdv.view.tag = some 0x71 ∧ s.rdv.view.role = some .member ∧ s.tm.slot = none ∧
        s.ctl.resetInProgress = false ∧ s.rdv.outcomes.length < 4) ∧
    ({ online with rdv.firePulse := some 20 } : State).rdv.firePulse = some 20 := by
  dsimp only; decide +kernel

theorem test_hyps_DeadlineExpiryByView :
    (let s : State := { online with rdv.view := member .waiting };
      Running s ∧ s.rdv.view.timer ≠ none ∧ s.rdv.view.group = some 0x42 ∧
        s.rdv.view.tag = some 0x71 ∧ s.rdv.view.state = .waiting ∧ s.rdv.view.fire = .clear ∧
        s.tm.slot = none ∧ (withSlot (.cancelFrame 0x42 0x71) .queued s).tm.slot ≠ none) ∧
    ({ member .armed with fire := .pending 7 4 } : View).fire ≠ .clear ∧
    (member .cancelling).state = .cancelling := by
  dsimp only; decide +kernel

theorem test_hyps_OutcomeQueueDropsItsOldest :
    State.reset.rdv.outcomes.length < 4 ∧
    (List.replicate 4 (viewRecord (member .armed) .fired 9)).length = 4 := by decide +kernel

theorem test_hyps_ParticipationBeginsAtRest :
    (let s : State :=
        { State.reset with ctl.state := .joining, ctl.joinPhase := some .awaitClear };
      Running s ∧ s.ctl.state = .joining ∧ s.ctl.joinPhase = some .awaitClear ∧
        s.line.sense.own = false ∧ s.line.sense.brk = false ∧ s.ctl.resetInProgress = false ∧
        s.tm.slot = none) ∧
    (let s : State := { State.reset with pins.req := true, pins.trg := true };
      Running s ∧ s.ctl.state = .offline ∧ s.port.phase = .command ∧ s.pins.own = false ∧
        s.pins.brk = false ∧ s.pins.req = true ∧ s.pins.trg = true ∧
        State.reset.pins.req = false) := by
  dsimp only; decide +kernel

/-- Every invariant holds after reset. -/
theorem test_hyps_Invariants :
    MemoryCanonical State.reset ∧ ConfigurationLegal State.reset ∧ LevelsSettled State.reset ∧
      QueuesBounded State.reset ∧ QuotaKept State.reset ∧ OrdersAgree State.reset ∧
      OffBusQuiet State.reset := by decide +kernel

/-- The step of that state, and of the state with a command waiting, answers a next state. -/
theorem test_hyps_StepAnswers :
    (∃ t, step State.reset = .next t) ∧
      ∃ t, step { State.reset with pending := [.join] } = .next t := ⟨⟨_, rfl⟩, ⟨_, rfl⟩⟩

/-- Every block has one owner after reset, and the attempts are in their range. -/
theorem test_hyps_BlocksAndAttempts :
    BlocksOwned State.reset ∧
      (∀ i : Fin 16, State.reset.tm.table[i].attempts ≤ 8) ∧ State.reset.tm.slot = none := by
  decide +kernel

end Sys2Proof.Tests
end

section
/-! The invariant that a station in OFFLINE or FAULTED is off the bus (R1, R2, R4, R20, R33, R82). -/

namespace Sys2Proof.Machine

open Sys2Proof

/-! ### Sensing, and the blocks of the bus side at rest -/

/-- The blocks of the bus side have their values off the bus. -/
def BusSideAtRest (s : State) : Prop :=
  s.line = LineInterface.quiet ∧ s.hs = Handshake.idle ∧ s.arb = Arbiter.off ∧
    s.fe = FrameEngine.idle ∧ s.rdv.view = View.absent

/-- Whether a station senses the lines depends on its station state alone (R2). -/
theorem senses_of_state {s t : State} (h : t.ctl.state = s.ctl.state) : senses t = senses s := by
  simp [senses, h]

/-- A station that senses the lines meets the invariant. -/
theorem offBusQuiet_of_senses {s : State} (h : senses s = true) : OffBusQuiet s := by
  simp [OffBusQuiet, h]

/-- A station whose bus side is at rest meets the invariant. -/
theorem offBusQuiet_of_rest {s : State} (h : BusSideAtRest s) : OffBusQuiet s := fun _ => h

/-- An operation that keeps the station controller keeps a sensing station on the bus. -/
theorem offBusQuiet_of_ctl {s t : State} (h : t.ctl = s.ctl) (hs : senses s = true) :
    OffBusQuiet t :=
  offBusQuiet_of_senses (by rw [senses_of_state (congrArg _ h), hs])

/-- An operation that keeps the station state, and a bus side at rest, keeps the invariant. -/
theorem OffBusQuiet.of_state {s t : State} (hs : OffBusQuiet s) (hc : t.ctl.state = s.ctl.state)
    (hr : BusSideAtRest s → BusSideAtRest t) : OffBusQuiet t := fun ht =>
  hr (hs (senses_of_state hc ▸ ht))

/-- An operation that keeps the station controller and the blocks of the bus side keeps the invariant. -/
theorem OffBusQuiet.of_parts {s t : State} (hs : OffBusQuiet s)
    (h : t.ctl.state = s.ctl.state ∧ t.line = s.line ∧ t.hs = s.hs ∧ t.arb = s.arb ∧ t.fe = s.fe ∧
      t.rdv.view = s.rdv.view) : OffBusQuiet t := by
  obtain ⟨hc, hl, hh, ha, hf, hv⟩ := h
  refine hs.of_state hc ?_
  simp only [BusSideAtRest, hl, hh, ha, hf, hv, imp_self]

/-! ### The view under the operations on the outcome queue -/

/-- A record joins the outcome queue and the view stays. -/
@[simp] theorem addOutcome_view (r : OutcomeRecord) (s : State) :
    (addOutcome r s).rdv.view = s.rdv.view := by
  simp only [addOutcome]
  split <;> simp

/-- An OPEN that leaves the slot moves no view. -/
@[simp] theorem notOpened_view (group tag : Byte) (reason : NotOpenedReason) (s : State) :
    (notOpened group tag reason s).rdv.view = s.rdv.view := by
  simp [notOpened]

/-- A view that closes is NONE. -/
@[simp] theorem closeView_view (o : RdvOutcome) (closedAt : ClockTime) (s : State) :
    (closeView o closedAt s).rdv.view = View.absent := by
  simp [closeView]

/-- The view of a station that leaves the bus is NONE (R82). -/
@[simp] theorem viewLeavesBus_view (s : State) : (viewLeavesBus s).rdv.view = View.absent := by
  simp only [viewLeavesBus]
  split <;> simp

/-- Emptying the slot moves no view. -/
@[simp] theorem emptySlotAtEntry_view (s : State) :
    (emptySlotAtEntry s).rdv.view = s.rdv.view := by
  simp only [emptySlotAtEntry]
  (repeat' split) <;> simp

/-! ### The two ways off the bus -/

/-- The entry into OFFLINE or FAULTED puts the bus side at rest. -/
theorem leaveBus_rest (target : StationState) (reason : StationReason) (s : State) :
    BusSideAtRest (leaveBus target reason s) := by
  simp [BusSideAtRest, leaveBus]

/-- The clearing of a soft reset puts the bus side at rest (R164). -/
theorem softResetClearing_rest (s : State) : BusSideAtRest (softResetClearing s) := by
  simp only [softResetClearing]
  split <;> simp [BusSideAtRest, RendezvousUnit.cleared]

/-- Power-on values put the bus side at rest (R162). -/
theorem powerOn_rest (straps : StationNumber) (p : PowerState) (n : Nat) (q : List Instr) :
    BusSideAtRest (State.powerOn straps p n q) := by
  simp [BusSideAtRest, State.powerOn, RendezvousUnit.cleared]

/-! ### Operations that change the station controller and keep a station on the bus -/

/-- Whether a station senses the lines is not the slot's matter. -/
@[simp] theorem setSlot_senses (f : Option SlotFrame) (s : State) :
    senses (setSlot f s) = senses s := rfl

/-- An entry into FAULTED that waits changes no station state yet (R52, R152). -/
@[simp] theorem awaitFault_state (reason : StationReason) (s : State) :
    (awaitFault reason s).ctl.state = s.ctl.state := by
  simp only [awaitFault]
  split <;> rfl

/-- An entry into FAULTED that waits keeps a station on the bus. -/
@[simp] theorem awaitFault_senses (reason : StationReason) (s : State) :
    senses (awaitFault reason s) = senses s := senses_of_state (awaitFault_state reason s)

/-- A station that has joined senses the lines, as it did before. -/
theorem stationJoined_senses {s : State} (h : senses s = true) :
    senses (stationJoined s) = true := by
  simp only [stationJoined]
  split
  · exact h
  · simp [senses]

/-- The end of a HELLO's attempt keeps a station on the bus. -/
theorem endHello_senses {f : SlotFrame} {o : TxOutcome} {atSource : Bool} {s : State}
    (h : senses s = true) : senses (endHello f o atSource s) = true := by
  cases o with
  | sent | noListener => exact stationJoined_senses (s := setSlot none s) h
  | clash => exact h
  | stalled | broken =>
    simp only [endHello]
    split_ifs <;> simp [h]

/-- The end of an attempt keeps a station on the bus. -/
theorem endAttempt_senses {o : TxOutcome} {atSource : Bool} {s : State} (h : senses s = true) :
    senses (endAttempt o atSource s) = true := by
  have kept {t : State} (e : t.ctl = s.ctl) : senses t = true := by
    rw [senses_of_state (congrArg _ e), h]
  simp only [endAttempt]
  split
  · exact kept (by simp)
  · split
    · rename_i f _
      simp only [endSlotAttempt]
      split
      · exact kept (by simp)
      · split
        · exact endHello_senses h
        · exact kept (by simp)
        · exact kept (by simp)
    · exact h
  · exact h

/-- The talker that rests again stays on the bus. -/
@[simp] theorem leaveTalker_senses (s : State) : senses (leaveTalker s) = senses s :=
  senses_of_state (by simp)

/-- The rendezvous unit's end of a frame is no matter of the station state. -/
@[simp] theorem rendezvousCompletion_senses (f : FrameState) (s : State) :
    senses (rendezvousCompletion f s) = senses s := senses_of_state (by simp)

/-- The arbiter's OUTSIDE is no matter of the station state. -/
@[simp] theorem enterOutside_senses (s : State) : senses (enterOutside s) = senses s := rfl

/-- An abandoned frame is no matter of the station state. -/
@[simp] theorem endFrame_handAbandonment_senses (s : State) :
    senses (endFrameState (handAbandonment s)) = senses s := senses_of_state (by simp)

/-- NO_LISTENER keeps a station on the bus. -/
theorem noListener_senses {s : State} (h : senses s = true) : senses (noListener s) = true := by
  simp only [noListener]
  repeat' split
  · exact h
  · rw [leaveTalker_senses]
    exact endAttempt_senses ((endFrame_handAbandonment_senses _).trans h)
  · exact h

/-- The end of a completion window keeps a station on the bus. -/
theorem completionWindowEnd_senses {s : State} (h : senses s = true) :
    senses (completionWindowEnd s) = true := by
  simp only [completionWindowEnd]
  repeat' split
  · exact h
  · exact h
  · exact (rendezvousCompletion_senses _ _).trans (endAttempt_senses h)
  · exact h
  · rw [senses_of_state (s := s) (by simp), h]

/-- A clash keeps a station on the bus until BRK is released (R52). -/
theorem readbackCompare_senses {b : BusByte} {s : State} (h : senses s = true) :
    senses (readbackCompare b s) = true := by
  rw [senses_of_state (s := s), h]
  simp only [readbackCompare, clashFound]
  repeat' split
  all_goals simp

/-- The break edge keeps a talker on the bus. -/
theorem breakTalker_senses {s : State} (h : senses s = true) : senses (breakTalker s) = true := by
  simp only [breakTalker, enterOutside_senses]
  split
  · exact h
  · exact endAttempt_senses ((endFrame_handAbandonment_senses _).trans h)

/-- The break edge keeps a station on the bus. -/
theorem breakEdge_senses {s : State} (h : senses s = true) : senses (breakEdge s) = true := by
  simp only [breakEdge, breakRole]
  split
  · exact h
  · split
    · refine breakTalker_senses ?_
      rw [senses_of_state (s := s) (by simp), h]
    all_goals rw [senses_of_state (s := s) (by simp), h]

/-! ### Operations that may leave the bus -/

/-- The release of BRK at a station that goes on leaves it on the bus or puts its bus side at rest. -/
theorem releaseOrdinary_quiet {s : State} (h : senses s = true) :
    OffBusQuiet (releaseOrdinary s) := by
  simp only [releaseOrdinary]
  split
  · exact offBusQuiet_of_rest (leaveBus_rest _ _ _)
  · exact offBusQuiet_of_ctl (by simp) h

/-- The release of BRK leaves a station on the bus or puts its bus side at rest. -/
theorem brkRelease_quiet {own req : Bool} {s : State} (h : senses s = true) :
    OffBusQuiet (brkRelease own req s) := by
  simp only [brkRelease]
  repeat' split
  · exact offBusQuiet_of_rest (softResetClearing_rest _)
  · refine releaseOrdinary_quiet ?_
    rw [senses_of_state (s := s) (by simp), h]
  · exact offBusQuiet_of_senses h

/-- LEFT keeps the invariant (R155). -/
theorem left_quiet {s : State} (h : OffBusQuiet s) : OffBusQuiet (left s) := by
  simp only [left]
  split
  · exact offBusQuiet_of_rest (leaveBus_rest _ _ _)
  · exact h

/-- JOIN_ABANDONED keeps the invariant (R154). -/
theorem joinAbandoned_quiet {s : State} (h : OffBusQuiet s) : OffBusQuiet (joinAbandoned s) := by
  simp only [joinAbandoned]
  split
  · exact offBusQuiet_of_rest (leaveBus_rest _ _ _)
  · exact h

/-- The action that begins participation changes no station state. -/
@[simp] theorem beginParticipation_state (s : State) :
    (beginParticipation s).ctl.state = s.ctl.state := by
  simp [beginParticipation]

/-- PARTICIPATION_BEGIN keeps a station on the bus. -/
theorem participationBegin_senses {req trg : Bool} {s : State} (h : senses s = true) :
    senses (participationBegin req trg s) = true := by
  rw [senses_of_state (s := s), h]
  simp only [participationBegin]
  split <;> simp

/-! ### Operations of a station on the bus or off it -/

/-- Off the bus the arbiter asks for nothing. -/
theorem askArbiter_quiet {s : State} (h : OffBusQuiet s) : OffBusQuiet (askArbiter s) :=
  h.of_state (by simp) fun r => by
    rw [askArbiter_waits (by rw [r.2.2.1]; decide)]
    exact r

/-- A station that is not in PREPARING becomes ready for nothing (R10). -/
theorem becomeReady_waits {s : State} (h : s.hs.role ≠ .participant .preparing) :
    becomeReady s = s := by
  simp [becomeReady, h]

/-- Off the bus no participant becomes ready. -/
theorem becomeReady_quiet {s : State} (h : OffBusQuiet s) : OffBusQuiet (becomeReady s) :=
  h.of_state (by simp) fun r => by
    rw [becomeReady_waits (by rw [r.2.1]; decide)]
    exact r

/-- Off the bus a freeing moves no block of the bus side. -/
theorem freeBlocks_quiet {blocks : List Nat} {s : State} (h : OffBusQuiet s) :
    OffBusQuiet (freeBlocks blocks s) := by
  cases blocks with
  | nil => exact h
  | cons b rest => exact becomeReady_quiet (h.of_parts (by simp))

/-- Off the bus the removal of the head record moves no block of the bus side. -/
theorem removeHeadRecord_quiet {s : State} (h : OffBusQuiet s) :
    OffBusQuiet (removeHeadRecord s) := by
  simp only [removeHeadRecord]
  split
  · exact h
  · rename_i r rest _
    have freed : OffBusQuiet (freeBlocks r.blocks { s with rm.records := rest }) :=
      freeBlocks_quiet (h.of_parts (by simp))
    split
    · exact becomeReady_quiet (freed.of_parts (by simp))
    · exact freed

/-- A descriptor that becomes FREE moves no block of the bus side off the bus. -/
theorem freeDescriptor_quiet {i : Fin 16} {s : State} (h : OffBusQuiet s) :
    OffBusQuiet (freeDescriptor i s) :=
  freeBlocks_quiet (h.of_parts (by simp))

/-- The abandonment of SEND's data phase moves no block of the bus side off the bus. -/
theorem abandonSend_quiet {s : State} (h : OffBusQuiet s) : OffBusQuiet (abandonSend s) := by
  simp only [abandonSend]
  split
  · exact freeDescriptor_quiet h
  · exact h

/-- Without a view ARM finds nothing to arm (R63). -/
theorem applyArm_quiet {s : State} (h : OffBusQuiet s) : OffBusQuiet (applyArm s) :=
  h.of_state (by simp) fun r => by
    have : applyArm s = s := by simp [applyArm, armResult, r.2.2.2.2, View.absent]
    rwa [this]

/-- ARM_PIN_EDGE keeps the invariant. -/
theorem armPinEdge_quiet {s : State} (h : OffBusQuiet s) : OffBusQuiet (armPinEdge s) := by
  simp only [armPinEdge]
  split
  · exact h
  · exact applyArm_quiet h

/-- Without a view no deadline timer runs (R75). -/
theorem deadlineExpiry_quiet {s : State} (h : OffBusQuiet s) : OffBusQuiet (deadlineExpiry s) :=
  h.of_state (by simp) fun r => by
    have : deadlineExpiry s = s := by simp [deadlineExpiry, r.2.2.2.2, View.absent]
    rwa [this]

/-- FIRE_PULSE_END keeps the invariant. -/
theorem firePulseEnd_quiet {s : State} (h : OffBusQuiet s) : OffBusQuiet (firePulseEnd s) := by
  simp only [firePulseEnd]
  split
  · exact h.of_parts (by simp)
  · exact h

/-! ### The host's commands -/

/-- JOIN puts a station on the bus or changes nothing (R149). -/
theorem cmdJoin_quiet {s : State} (h : OffBusQuiet s) : OffBusQuiet (cmdJoin s).1 := by
  simp only [cmdJoin]
  split
  · refine offBusQuiet_of_senses ?_
    simp only
    split <;> simp [senses]
  · exact h

/-- LEAVE keeps the invariant (R153–R155). -/
theorem cmdLeave_quiet {s : State} (h : OffBusQuiet s) : OffBusQuiet (cmdLeave s).1 := by
  simp only [cmdLeave]
  split
  · split
    · exact h
    · exact left_quiet (offBusQuiet_of_senses (by simp [senses]))
  · rename_i hj
    have joining (t : State) (e : t.ctl.state = s.ctl.state) : OffBusQuiet t :=
      offBusQuiet_of_senses (by simp [senses, e, hj])
    simp only [abandonJoin]
    split
    · exact h
    · split
      · exact joinAbandoned_quiet (joining _ (by simp))
      · exact offBusQuiet_of_rest (leaveBus_rest _ _ _)
  all_goals exact h

/-- SEND keeps the invariant. -/
theorem cmdSend_quiet {tag cls destination flags lengthHigh lengthLow : Byte} {s : State}
    (h : OffBusQuiet s) :
    OffBusQuiet (cmdSend tag cls destination flags lengthHigh lengthLow s).1 := by
  simp only [cmdSend]
  split
  · exact h
  · split
    · exact askArbiter_quiet (h.of_parts (by simp))
    · exact h.of_parts (by simp)

/-- WITHDRAW keeps the invariant. -/
theorem cmdWithdraw_quiet {tag : Byte} {s : State} (h : OffBusQuiet s) :
    OffBusQuiet (cmdWithdraw tag s).1 := by
  simp only [cmdWithdraw]
  split
  · exact h
  · split
    · exact freeDescriptor_quiet (h.of_parts (by simp))
    all_goals exact h

/-- DISCARD keeps the invariant. -/
theorem cmdDiscard_quiet {s : State} (h : OffBusQuiet s) : OffBusQuiet (cmdDiscard s).1 := by
  simp only [cmdDiscard]
  split
  · exact h
  · exact removeHeadRecord_quiet h

/-- A frame placed in the slot keeps the invariant. -/
theorem placeSlotFrame_quiet {kind : SlotKind} {s : State} (h : OffBusQuiet s) :
    OffBusQuiet (placeSlotFrame kind s) :=
  askArbiter_quiet (h.of_parts (by simp))

/-- OPEN keeps the invariant. -/
theorem cmdOpen_quiet {group tag high low : Byte} {s : State} (h : OffBusQuiet s) :
    OffBusQuiet (cmdOpen group tag high low s).1 := by
  simp only [cmdOpen]
  split_ifs
  · exact h
  · exact h
  · exact h
  · exact placeSlotFrame_quiet h

/-- ARM keeps the invariant. -/
theorem cmdArm_quiet {s : State} (h : OffBusQuiet s) : OffBusQuiet (cmdArm s).1 := by
  simp only [cmdArm]
  split
  · exact h
  · split
    · exact applyArm_quiet h
    · exact applyArm_quiet h
    · exact h

/-- CANCEL keeps the invariant. -/
theorem cmdCancel_quiet {s : State} (h : OffBusQuiet s) : OffBusQuiet (cmdCancel s).1 := by
  simp only [cmdCancel, placeCancel]
  split_ifs
  · exact h
  · exact h
  · split
    · exact placeSlotFrame_quiet h
    · exact h

/-- SOFT RESET keeps the invariant (R163). -/
theorem cmdSoftReset_quiet {s : State} : OffBusQuiet (cmdSoftReset s).1 := by
  cases hst : s.ctl.state with
  | joining | online | leaving =>
    exact offBusQuiet_of_senses (by simp [cmdSoftReset, senses, hst])
  | offline | faulted =>
    simp only [cmdSoftReset, hst]
    exact offBusQuiet_of_rest (softResetClearing_rest _)

/-- Every command of the host keeps the invariant at its owner. -/
theorem ownerAction_quiet {c : HostCommand} {p : List Byte} {s : State} (h : OffBusQuiet s) :
    OffBusQuiet (ownerAction c p s).1 := by
  have same {t : State} (e : t.ctl.state = s.ctl.state ∧ t.line = s.line ∧ t.hs = s.hs ∧
      t.arb = s.arb ∧ t.fe = s.fe ∧ t.rdv.view = s.rdv.view) : OffBusQuiet t := h.of_parts e
  simp only [ownerAction]
  cases c with
  | configure =>
    refine same ?_
    simp only [cmdConfigure]
    (repeat' split) <;> simp
  | setGroup =>
    refine same ?_
    simp only [cmdSetGroup]
    (repeat' split) <;> simp
  | join => exact cmdJoin_quiet h
  | leave => exact cmdLeave_quiet h
  | send => exact cmdSend_quiet h
  | withdraw => exact cmdWithdraw_quiet h
  | discard => exact cmdDiscard_quiet h
  | openRdv => exact cmdOpen_quiet h
  | arm => exact cmdArm_quiet h
  | cancel => exact cmdCancel_quiet h
  | softReset => exact cmdSoftReset_quiet
  | outcome =>
    refine same ?_
    simp only [cmdOutcome]
    split <;> simp
  | reap | fetch | causes | acknowledge | setMask | snapshot => exact same (by simp)

/-- A command handed over keeps the invariant (R168, R169). -/
theorem deliver_quiet {code : Byte} {p : List Byte} {s : State} (h : OffBusQuiet s) :
    OffBusQuiet (deliver code p s) := by
  have answered : OffBusQuiet (answerTo code p s).1 := by
    simp only [answerTo]
    split
    · exact ownerAction_quiet h
    · exact h
  simp only [deliver]
  split
  · exact answered
  · exact answered.of_parts (by simp)

/-- A DATA write keeps the invariant, in every phase of the port. -/
theorem dataWrite_quiet {b : Byte} {s : State} (h : OffBusQuiet s) :
    OffBusQuiet (dataWrite b s) := by
  simp only [dataWrite]
  split
  · simp only [commandByte]
    split
    · exact h.of_parts (by simp)
    all_goals exact deliver_quiet h
  · simp only [parameterByte]
    split
    · exact deliver_quiet h
    · exact h.of_parts (by simp)
  · simp only [payloadByte]
    split
    · rename_i i _
      split
      · have asked : OffBusQuiet (askArbiter (queueAtTail i (placePayloadByte i b s))) :=
          askArbiter_quiet (h.of_parts (by simp))
        exact asked.of_parts (by simp)
      · exact h.of_parts (by simp)
    · exact h
  all_goals exact h.of_parts (by simp)

/-- A DATA read keeps the invariant, in every phase of the port. -/
theorem dataRead_quiet {s : State} (h : OffBusQuiet s) : OffBusQuiet (dataRead s) := by
  have ended {b : Byte} {t : State} (ht : OffBusQuiet t) : OffBusQuiet (endByRead b t) :=
    ht.of_parts (by simp)
  simp only [dataRead]
  split
  · simp only [resultByte, resultRead, fetchResultRead, outcomeRead]
    split
    · split
      · exact ended h
      · split
        · exact ended (h.of_parts (by simp))
        · split
          · exact ended h
          · split
            · exact ended (removeHeadRecord_quiet h)
            · exact h.of_parts (by simp)
        · split
          · exact h.of_parts (by simp)
          · exact ended h
        · exact ended h
    · exact h.of_parts (by simp)
  · simp only [payloadRead]
    split
    · exact ended (removeHeadRecord_quiet h)
    · exact h.of_parts (by simp)
  all_goals exact h.of_parts (by simp)

/-- ABANDON keeps the invariant (R174). -/
theorem abandon_quiet {s : State} (h : OffBusQuiet s) : OffBusQuiet (abandon s) := by
  simp only [abandon]
  split
  case h_3 => exact (abandonSend_quiet h).of_parts (by simp)
  case h_4 => split <;> exact h.of_parts (by simp)
  all_goals exact h.of_parts (by simp [dropResult])

/-- BUSY_END keeps the invariant (R170). -/
theorem busyEnd_quiet {s : State} (h : OffBusQuiet s) : OffBusQuiet (busyEnd s) := by
  simp only [busyEnd]
  split
  · split
    · exact (abandonSend_quiet h).of_parts (by simp)
    · exact h.of_parts (by simp)
  · split
    · exact h.of_parts (by simp [dropResult])
    · exact h.of_parts (by simp)
  · exact h

/-- A whole command keeps the invariant, in every phase of the port. -/
theorem giveCommand_quiet {code : Byte} {p : List Byte} {s : State} (h : OffBusQuiet s) :
    OffBusQuiet (giveCommand code p s) := by
  have written (bytes : List Byte) : ∀ t : State, OffBusQuiet t →
      OffBusQuiet (bytes.foldl (fun t b => dataWrite b t) t) := by
    induction bytes with
    | nil => exact fun _ ht => ht
    | cons b rest ih => exact fun _ ht => ih _ (dataWrite_quiet ht)
  simp only [giveCommand]
  split
  · exact deliver_quiet h
  · exact written _ _ h

/-! ### One action, one period, one step -/

/-- The settling of the cause unit moves no block of the bus side. -/
theorem settleCauses_quiet {s : State} (h : OffBusQuiet s) : OffBusQuiet (settleCauses s) :=
  h.of_parts (by simp)

/-- An action keeps the invariant if its change does. -/
theorem act_keepsQuiet {change : State → State} {s t : State}
    (hc : OffBusQuiet s → OffBusQuiet (change s)) (hs : OffBusQuiet s)
    (e : act change s = .next t) : OffBusQuiet t := by
  simp only [act] at e
  split at e
  · obtain rfl := Host.Outcome.next.inj e
    exact settleCauses_quiet (hc hs)
  · obtain rfl := Host.Outcome.next.inj e
    exact hs

/-- An action on the bus keeps the invariant if its change does at a station that senses the lines. -/
theorem actOnBus_keepsQuiet {change : State → State} {s t : State}
    (hc : senses s = true → OffBusQuiet (change s)) (hs : OffBusQuiet s)
    (e : actOnBus change s = .next t) : OffBusQuiet t := by
  refine act_keepsQuiet (fun _ => ?_) hs e
  split
  · exact hc ‹_›
  · exact hs

/-- An action on an edge keeps the invariant if its change does at a station that senses the lines. -/
theorem actOnLine_keepsQuiet {note : PinLevels → PinLevels} {change : State → State} {s t : State}
    (hc : senses s = true → OffBusQuiet (change s)) (hs : OffBusQuiet s)
    (e : actOnLine note change s = .next t) : OffBusQuiet t := by
  refine act_keepsQuiet (fun _ => ?_) hs e
  split
  · exact hc ‹_›
  · exact hs.of_parts (by simp)

/-- Off the bus no timer of the bus side runs. -/
theorem tick_quiet {s : State} (h : OffBusQuiet s) : OffBusQuiet (tick s) := by
  simp only [tick]
  split
  · refine h.of_state rfl fun r => ?_
    obtain ⟨hl, hh, ha, hf, hv⟩ := r
    simp only [BusSideAtRest, passTime, hl, hh, ha, hf, hv]
    decide
  · exact h

/-- Every command keeps the invariant. -/
theorem exec_quiet {c : Instr} {s t : State} (h : OffBusQuiet s) (e : exec c s = .next t) :
    OffBusQuiet t := by
  cases c with
  | commandByteWrite b | parameterByteWrite b | payloadByteWrite b =>
    exact act_keepsQuiet dataWrite_quiet h e
  | resultByteRead | payloadByteRead => exact act_keepsQuiet dataRead_quiet h e
  | busyEnd => exact act_keepsQuiet busyEnd_quiet h e
  | abandon b => exact act_keepsQuiet abandon_quiet h e
  | protocolError a =>
    cases a with
    | write b => exact act_keepsQuiet dataWrite_quiet h e
    | read => exact act_keepsQuiet dataRead_quiet h e
  | configure | setGroup | join | leave | send | withdraw | reap | fetch | discard | openRendezvous
  | arm | cancel | outcome | causes | acknowledge | setMask | snapshot | softReset =>
    exact act_keepsQuiet giveCommand_quiet h e
  | armPinEdge => exact act_keepsQuiet armPinEdge_quiet h e
  | firePulseEnd => exact act_keepsQuiet firePulseEnd_quiet h e
  | deadlineExpiry => exact act_keepsQuiet deadlineExpiry_quiet h e
  | agedFlagSet place => exact act_keepsQuiet (fun h => h.of_parts (by simp)) h e
  | left => exact act_keepsQuiet left_quiet h e
  | joinAbandoned => exact act_keepsQuiet joinAbandoned_quiet h e
  | resetAssert =>
    simp only [exec, execResetAssert] at e
    split at e
    · obtain rfl := Host.Outcome.next.inj e
      exact h
    · obtain rfl := Host.Outcome.next.inj e
      exact offBusQuiet_of_rest (powerOn_rest _ _ _ _)
  | resetRelease straps =>
    simp only [exec, execResetRelease] at e
    split at e
    · obtain rfl := Host.Outcome.next.inj e
      exact h
    · obtain rfl := Host.Outcome.next.inj e
      exact offBusQuiet_of_rest (powerOn_rest _ _ _ _)
  | lossOfPower =>
    obtain rfl := Host.Outcome.next.inj e
    exact offBusQuiet_of_rest (powerOn_rest _ _ _ _)
  | noListener =>
    exact actOnBus_keepsQuiet (fun hs => offBusQuiet_of_senses (noListener_senses hs)) h e
  | completionWindowEnd =>
    exact actOnBus_keepsQuiet (fun hs => offBusQuiet_of_senses (completionWindowEnd_senses hs)) h e
  | readbackCompare b =>
    exact actOnBus_keepsQuiet (fun hs => offBusQuiet_of_senses (readbackCompare_senses hs)) h e
  | breakEdge =>
    simp only [exec, execBreakEdge] at e
    exact actOnLine_keepsQuiet (fun hs => offBusQuiet_of_senses (breakEdge_senses hs)) h e
  | brkRelease own req =>
    simp only [exec, execBrkRelease] at e
    exact actOnLine_keepsQuiet brkRelease_quiet h e
  | participationBegin req trg =>
    simp only [exec, execParticipationBegin] at e
    exact actOnLine_keepsQuiet (fun hs => offBusQuiet_of_senses (participationBegin_senses hs)) h e
  | ownAssertionSensed | ownReleaseSensed | busIdleSensed | reqSensed | trgReleaseSensed =>
    simp only [exec, execOwnAssertionSensed, execOwnReleaseSensed, execBusIdleSensed,
      execReqSensed, execTrgReleaseSensed] at e
    exact actOnLine_keepsQuiet (offBusQuiet_of_ctl (by simp)) h e
  | take | observe | offerReleaseSensed | talkerReadySensed | offerAssert | pendReleaseSensed
  | ownHoldEnd | stallTimerExpiry | silenceTimerExpiry | breakGuardEnd | breakPulseEnd
  | clearBreakClassification | bidLineChange | arbitrationDecision | wonHoldEnd | roundGapExpiry
  | fireDelayEnd | clearBreakDelayEnd =>
    exact actOnBus_keepsQuiet (offBusQuiet_of_ctl (by simp)) h e

end Sys2Proof.Machine

open Sys2Proof Sys2Proof.Machine

/-- Settles O59: one case per command, from what each operation does to the station state and to a bus side at rest; a period of the clock finds no timer of the bus side running. -/
theorem stepKeepsOffBusQuiet : Obligations.StepKeepsOffBusQuiet := by
  intro s t h e
  simp only [step] at e
  split at e
  · exact exec_quiet (h.of_parts (by simp)) e
  · obtain rfl := Host.Outcome.next.inj e
    exact tick_quiet h
end

section
/-! How breaks begin, are held back and end (R14–R16, R68). -/

namespace Sys2Proof.Machine

open Sys2Proof

/-! ### The begin of a frame break (R16) -/

/-- A sensed BRK stands for a frame break. -/
theorem requestFrameBreak_sensed (r : FrameBreakReason) {s : State} (h : s.line.sense.brk = true) :
    requestFrameBreak r s = s := by
  simp [requestFrameBreak, h]

/-- The guard holds a frame break back. -/
theorem requestFrameBreak_guarded (r : FrameBreakReason) {s : State}
    (h : s.line.sense.brk = false) (hg : s.line.guard ≠ none) :
    requestFrameBreak r s = { s with line.heldFrame := r :: s.line.heldFrame } := by
  simp [requestFrameBreak, h, Option.isSome_iff_ne_none.2 hg]

/-- The station's own frame pulse stands for a frame break. -/
theorem requestFrameBreak_pulsing (r : FrameBreakReason) {s : State}
    (h : s.line.sense.brk = false) (hg : s.line.guard = none) (hp : s.line.framePulse ≠ none) :
    requestFrameBreak r s = s := by
  simp [requestFrameBreak, h, hg, Option.isSome_iff_ne_none.2 hp]

/-- On a line without a break, with no guard and no pulse of its own, the station begins its pulse. -/
theorem requestFrameBreak_begins (r : FrameBreakReason) {s : State}
    (h : s.line.sense.brk = false) (hg : s.line.guard = none) (hp : s.line.framePulse = none) :
    requestFrameBreak r s = { s with line.framePulse := some 0, line.drive.brk := true } := by
  simp [requestFrameBreak, h, hg, hp]

/-! ### The begin of a clear break (R16, R68) -/

/-- The guard holds a clear break back. -/
theorem startClearBreak_guarded {s : State} (hg : s.line.guard ≠ none) :
    startClearBreak s = { s with line.heldClear := true } := by
  simp [startClearBreak, Option.isSome_iff_ne_none.2 hg]

/-- The station's own clear pulse stands for a clear break. -/
theorem startClearBreak_pulsing {s : State} (hg : s.line.guard = none)
    (hp : s.line.clearPulse ≠ none) : startClearBreak s = s := by
  simp [startClearBreak, hg, Option.isSome_iff_ne_none.2 hp]

/-- With no guard and no clear pulse of its own the station begins its pulse, into an asserted BRK too. -/
theorem startClearBreak_begins {s : State} (hg : s.line.guard = none)
    (hp : s.line.clearPulse = none) :
    startClearBreak s = { s with line.clearPulse := some 0, line.drive.brk := true } := by
  simp [startClearBreak, hg, hp]

/-- Within 300 ns of a sensed release of TRG a clear break waits. -/
theorem requestClearBreak_delayed {s : State} (h : s.line.trgDelay ≠ none) :
    requestClearBreak s = { s with line.delayedClear := true } := by
  simp [requestClearBreak, Option.isSome_iff_ne_none.2 h]

/-- Without a release of TRG sensed in the last 300 ns a clear break is begun as R16 governs it. -/
theorem requestClearBreak_undelayed {s : State} (h : s.line.trgDelay = none) :
    requestClearBreak s = startClearBreak s := by
  simp [requestClearBreak, h]

/-! ### The timers' expiry (R14, R15) -/

/-- A first hand-off stands (R110). -/
theorem handOutcome_first {o : TxOutcome} {s : State} (h : s.tm.handed = none) :
    handOutcome o s = { s with tm.handed := some o } := by
  simp [handOutcome, h]

/-- A timer below a limit has not reached it. -/
theorem reached_below {t : Option Nat} {limit : Nat} (h : ∀ n, t = some n → n < limit) :
    reached t limit = false := by
  cases t with
  | none => rfl
  | some n => simpa [reached] using h n rfl

/-- At its limit, in a wait that goes on, the talker's stall timer stops, STALLED is handed and a frame break is to begin. -/
theorem stallTimerExpiry_expires {s : State} (h : stallExpires s = true)
    (hr : s.hs.role = .talker .awaitReady ∨ s.hs.role = .talker .offered) :
    stallTimerExpiry s =
      requestFrameBreak .stall (handOutcome .stalled { s with hs.stall := none }) := by
  rcases hr with hr | hr <;> simp [stallTimerExpiry, h, hr]

/-- A stall timer that does not expire changes nothing. -/
theorem stallTimerExpiry_early {s : State} (h : stallExpires s = false) :
    stallTimerExpiry s = s := by
  simp [stallTimerExpiry, h]

end Sys2Proof.Machine

open Sys2Proof Sys2Proof.Machine

/-- Settles O37: the limits are compared by `reached`, and what a request for a frame break does is R16's. -/
theorem timerExpiryBeginsAFrameBreak : Obligations.TimerExpiryBeginsAFrameBreak := by
  refine ⟨fun s hb hbrk hg hp => ⟨?_, ?_⟩, fun s hb => ⟨?_, ?_⟩⟩
  · intro n hn hlim hsetUp hrole hnone
    have expires : stallExpires s = true := by
      simp [stallExpires, reached, stallBound, hn, hlim, hsetUp]
    refine nextIs_of_busChange rfl hb ?_
    rw [stallTimerExpiry_expires expires hrole, handOutcome_first (by exact hnone)]
    exact requestFrameBreak_begins _ hbrk hg hp
  · intro n hn hlim
    have expires : reached s.hs.silence (silenceBound s) = true := by
      simp [reached, silenceBound, hn, hlim]
    refine nextIs_of_busChange rfl hb ?_
    rw [silenceTimerExpiry, if_pos expires]
    exact requestFrameBreak_begins _ hbrk hg hp
  · intro h
    refine nextIs_of_busChange rfl hb (stallTimerExpiry_early ?_)
    rcases h with h | h
    · simp [stallExpires, reached_below (limit := stallBound s) h]
    · simp [stallExpires, Option.isSome_iff_ne_none.2 h]
  · intro h
    refine nextIs_of_busChange rfl hb ?_
    rw [silenceTimerExpiry, reached_below (limit := silenceBound s) h]
    rfl

/-- Settles O38: the requests for a break by the lines, the guard and the pulses, and the ends of guard, delay and pulses by what was held back. -/
theorem breaksBeginAndEnd : Obligations.BreaksBeginAndEnd := by
  refine ⟨fun r s => ⟨requestFrameBreak_sensed r, requestFrameBreak_guarded r,
    requestFrameBreak_pulsing r, requestFrameBreak_begins r, requestClearBreak_delayed, ?_, ?_, ?_⟩,
    fun s hb => ⟨?_, ?_, ?_, ?_, ?_, ?_, ?_, ?_, ?_⟩⟩
  · intro hd hg
    rw [requestClearBreak_undelayed hd, startClearBreak_guarded hg]
  · intro hd hg hp
    rw [requestClearBreak_undelayed hd, startClearBreak_pulsing hg hp]
  · intro hd hg hp
    rw [requestClearBreak_undelayed hd, startClearBreak_begins hg hp]
  · intro hf hc
    refine nextIs_of_busChange rfl hb ?_
    simp [breakGuardEnd, hf, hc]
  · intro r rest hf hc hbrk hp
    refine nextIs_of_busChange rfl hb ?_
    simp only [breakGuardEnd, hf, hc, Bool.false_eq_true, if_false]
    exact requestFrameBreak_begins r hbrk rfl hp
  · intro hf hc hd hp
    refine nextIs_of_busChange rfl hb ?_
    simp only [breakGuardEnd, hf, hc, if_true]
    rw [requestClearBreak_undelayed (by exact hd)]
    exact startClearBreak_begins rfl hp
  · intro hf hc hd
    refine nextIs_of_busChange rfl hb ?_
    simp only [breakGuardEnd, hf, hc, if_true]
    exact requestClearBreak_delayed hd
  · intro hdel
    refine nextIs_of_busChange rfl hb ?_
    simp [clearBreakDelayEnd, hdel]
  · intro hdel hg hp
    refine nextIs_of_busChange rfl hb ?_
    simp only [clearBreakDelayEnd, hdel, if_true]
    exact startClearBreak_begins hg hp
  · intro hdel hg
    refine nextIs_of_busChange rfl hb ?_
    simp only [clearBreakDelayEnd, hdel, if_true]
    exact startClearBreak_guarded hg
  · refine nextIs_of_busChange rfl hb ?_
    simp [breakPulseEnd]
  · refine nextIs_of_busChange rfl hb ?_
    simp [breakPulseEnd]
end

section
/-! The byte handshake at a participant and a bystander (R2, R4, R9, R40, R53). -/

namespace Sys2Proof.Machine

open Sys2Proof

/-! ### What a byte handed on leaves alone (R40, R41) -/

/-- An OPEN final byte elsewhere than at its talker moves the level and the drive of TRG, and no other line. -/
theorem openFinalElsewhere_line (taken : Bool) (address source tag : Byte) (deadline : Deadline)
    (s : State) :
    ∃ d, (openFinalElsewhere taken address source tag deadline s).line =
        { s.line with drive.trg := d, sense.trg := true } ∧
      (taken = false → d = s.line.drive.trg) := by
  simp only [openFinalElsewhere]
  split
  · exact ⟨true, rfl, by simp_all⟩
  · exact ⟨s.line.drive.trg, rfl, fun _ => rfl⟩

/-- What a participant hands on moves the level and the drive of TRG, and no other line. -/
theorem handTaken_line (e : FrameEvent) (s : State) :
    ∃ d l, (handTaken e s).line = { s.line with drive.trg := d, sense.trg := l } := by
  have kept {t : State} (h : t.line = s.line) :
      ∃ d l, t.line = { s.line with drive.trg := d, sense.trg := l } :=
    ⟨s.line.drive.trg, s.line.sense.trg, h⟩
  cases e with
  | openFinal address source tag deadline =>
    obtain ⟨d, hd, _⟩ := openFinalElsewhere_line true address source tag deadline s
    exact ⟨d, true, hd⟩
  | copies | malformed =>
    simp only [handTaken]
    split <;> exact kept (by simp)
  | nothing | cancelHeader | cancelFinal => exact kept (by simp [handTaken])

/-- What a bystander hands on drives no line and moves the level of TRG alone. -/
theorem handObserved_line (e : FrameEvent) (s : State) :
    ∃ l, (handObserved e s).line = { s.line with sense.trg := l } := by
  cases e with
  | openFinal address source tag deadline =>
    obtain ⟨d, hd, same⟩ := openFinalElsewhere_line false address source tag deadline s
    exact ⟨true, by rw [same rfl] at hd; exact hd⟩
  | nothing | copies | malformed | cancelHeader | cancelFinal =>
    exact ⟨s.line.sense.trg, by simp [handObserved]⟩

/-- The storing of copies moves no queued record. -/
@[simp] theorem storeCopies_records (value : Byte) (last : Bool) (n : Nat) (s : State) :
    (storeCopies value last n s).rm.records = s.rm.records := by
  induction n generalizing s with
  | zero => rfl
  | succ n ih =>
    simp only [storeCopies, requestRefused]
    (repeat' split) <;> simp [ih, putCopy]

/-- The copies of a byte move no queued record. -/
@[simp] theorem receiveCopies_records (value : Byte) (n : Nat) (last : Bool) (s : State) :
    (receiveCopies value n last s).rm.records = s.rm.records := by
  simp only [receiveCopies]
  split <;> simp [countFull]

/-- A malformed payload moves no queued record. -/
@[simp] theorem receiveMalformed_records (s : State) :
    (receiveMalformed s).rm.records = s.rm.records := by
  simp only [receiveMalformed]
  split <;> rfl

/-- What a participant hands on moves no queued record and no outcome record. -/
theorem handTaken_queues (e : FrameEvent) (s : State) :
    (handTaken e s).rm.records = s.rm.records ∧
      (handTaken e s).rdv.outcomes = s.rdv.outcomes := by
  cases e with
  | copies | malformed =>
    simp only [handTaken]
    split <;> simp
  | nothing => exact ⟨rfl, rfl⟩
  | cancelHeader | cancelFinal | openFinal =>
    simp only [handTaken, cancelHeader, cancelFinal, openFinalElsewhere]
    split <;> simp

/-! ### A byte taken and a byte observed (R9, R40, R53) -/

/-- A participant in READY takes a byte (R9): what is sampled, driven and parsed before its event is handed on. -/
def byteTaken (b : BusByte) (s : State) : State :=
  { sampleOffer b s with
    line.drive.wait := true
    line.drive.pend := false
    hs.latch := some { byte := b, position := s.fe.frame.position }
    hs.role := .participant .taken
    fe.frame := (parseByte s.ctl.number s.ctl.subscriptions b s.fe.frame).1 }

/-- What a taken byte sets and keeps. -/
@[simp] theorem byteTaken_sets (b : BusByte) (s : State) :
    (byteTaken b s).hs = { s.hs with
      role := .participant .taken
      latch := some { byte := b, position := s.fe.frame.position }
      silence := s.hs.silence.map (fun _ => 0) } ∧
    (byteTaken b s).line.drive = { s.line.drive with wait := true, pend := false } ∧
    (byteTaken b s).line.observed = some b ∧
    (byteTaken b s).fe = { s.fe with
      frame := (parseByte s.ctl.number s.ctl.subscriptions b s.fe.frame).1 } ∧
    (byteTaken b s).arb = s.arb ∧ (byteTaken b s).tm = s.tm ∧ (byteTaken b s).ctl = s.ctl ∧
    (byteTaken b s).rm = s.rm ∧ (byteTaken b s).rdv = s.rdv ∧
    (byteTaken b s).port = s.port ∧ (byteTaken b s).cause = s.cause := by
  simp [byteTaken, sampleOffer, restartSilence]

/-- TAKE in READY, where no duplicate SOURCE stops it. -/
theorem take_ready {b : BusByte} {s : State} (hr : s.hs.role = .participant .ready)
    (hd : isDuplicateSource s.ctl.number b s.fe.frame = false) :
    take b s =
      handTaken (parseByte s.ctl.number s.ctl.subscriptions b s.fe.frame).2 (byteTaken b s) := by
  simp [take, hr, takeByte, hd, parseNext, byteTaken]

/-- TAKE in READY of a header byte 2 with the station's own number (R53). -/
theorem take_duplicate {b : BusByte} {s : State} (hr : s.hs.role = .participant .ready)
    (hd : isDuplicateSource s.ctl.number b s.fe.frame = true) :
    take b s =
      requestFrameBreak .duplicate (handDuplicate
        { sampleOffer b s with
          line.drive.wait := true
          hs.latch := some { byte := b, position := s.fe.frame.position }
          hs.role := .participant .holding }) := by
  simp [take, hr, takeByte, hd, holdDuplicate]

/-- A bystander observes a byte (R40): what is sampled and parsed before its event is handed on. -/
def byteObserved (b : BusByte) (s : State) : State :=
  { sampleOffer b s with
    fe.frame := (parseByte s.ctl.number s.ctl.subscriptions b s.fe.frame).1 }

/-- What an observed byte sets and keeps. -/
@[simp] theorem byteObserved_sets (b : BusByte) (s : State) :
    (byteObserved b s).hs = { s.hs with silence := s.hs.silence.map (fun _ => 0) } ∧
    (byteObserved b s).line.drive = s.line.drive ∧
    (byteObserved b s).line.observed = some b ∧
    (byteObserved b s).fe = { s.fe with
      frame := (parseByte s.ctl.number s.ctl.subscriptions b s.fe.frame).1 } ∧
    (byteObserved b s).arb = s.arb ∧ (byteObserved b s).tm = s.tm ∧
    (byteObserved b s).rm = s.rm ∧ (byteObserved b s).mem = s.mem ∧
    (byteObserved b s).ctl = s.ctl ∧ (byteObserved b s).port = s.port ∧
    (byteObserved b s).cause = s.cause := by
  simp [byteObserved, sampleOffer, restartSilence]

/-- OBSERVE at a bystander and in NONE (log 42). -/
theorem observe_aside {b : BusByte} {s : State} (hr : s.hs.role = .bystander ∨ s.hs.role = .none) :
    observe b s =
      handObserved (parseByte s.ctl.number s.ctl.subscriptions b s.fe.frame).2
        (byteObserved b s) := by
  rcases hr with hr | hr <;> simp [observe, hr, parseNext, byteObserved]

/-- An action whose change leaves the cause unit alone keeps the causes. -/
theorem settleCauses_keepsCauses_of {s u : State} (h : u.cause = s.cause) :
    KeepsCauses s (settleCauses u) := by
  have := settleCauses_keepsCauses u
  rwa [KeepsCauses, h] at this

end Sys2Proof.Machine

open Sys2Proof Sys2Proof.Machine

/-- Settles O30: what is handed on at a byte moves TRG and no other line, and no queue. -/
theorem participantTakesOrHolds : Obligations.ParticipantTakesOrHolds := by
  refine ⟨fun b s hb hr hd => ?_, fun b s hb hr hpend hd hbrk hg hp => ?_⟩
  · refine ⟨settleCauses (take b s), actOnBus_sensing hb, ?_⟩
    rw [take_ready hr hd]
    generalize (parseByte s.ctl.number s.ctl.subscriptions b s.fe.frame).2 = e
    obtain ⟨d, l, hline⟩ := handTaken_line e (byteTaken b s)
    obtain ⟨hrecords, houtcomes⟩ := handTaken_queues e (byteTaken b s)
    have hcauses : KeepsCauses s (settleCauses (handTaken e (byteTaken b s))) :=
      settleCauses_keepsCauses_of (by simp)
    simp [hline, hrecords, houtcomes, hcauses]
  · refine nextIs_of_busChange rfl hb ?_
    rw [take_duplicate hr hd, requestFrameBreak_begins _ (by exact hbrk) (by exact hg) (by exact hp)]
    rfl

/-- Settles O31: what a bystander hands on moves the level of TRG and drives nothing. -/
theorem bystanderObservesWithoutPacing : Obligations.BystanderObservesWithoutPacing := by
  intro b s hb hr
  refine ⟨settleCauses (observe b s), actOnBus_sensing hb, ?_⟩
  rw [observe_aside hr]
  generalize (parseByte s.ctl.number s.ctl.subscriptions b s.fe.frame).2 = e
  obtain ⟨l, hline⟩ := handObserved_line e (byteObserved b s)
  have hcauses : KeepsCauses s (settleCauses (handObserved e (byteObserved b s))) :=
    settleCauses_keepsCauses_of (by simp)
  simp [hline, hcauses]
end

section
/-! The talker's byte: supplied, offered and withdrawn (R3, R7, R11, R41, R50). -/

namespace Sys2Proof.Machine

open Sys2Proof

/-- A stall timer that runs has not expired (log 19). -/
theorem hasStalled_running {s : State} (h : s.hs.stall ≠ none) : hasStalled s = false := by
  obtain ⟨n, hn⟩ := Option.ne_none_iff_exists'.1 h
  simp [hasStalled, hn]

/-- The byte that a talker supplies is driven for its set-up and parsed, before its event is handed (R3, R41). -/
def byteSupplied (b : BusByte) (f : FrameState) (s : State) : State :=
  { s with
    line.sense.wait := false
    line.sense.pend := true
    line.drive.data := b.data
    line.drive.kind := b.kind
    line.drive.last := b.last
    hs.setUp := some 0
    fe.frame := f }

/-- TALKER_READY_SENSED in a wait that goes on (R7, R41). -/
theorem talkerReadySensed_supplies {b : BusByte} {f : FrameState} {e : FrameEvent} {s : State}
    (hc : currentByte s = some b) (hw : s.hs.stall ≠ none) (hr : s.hs.role = .talker .awaitReady)
    (hu : s.hs.setUp = none)
    (hp : parseByte s.ctl.number s.ctl.subscriptions b s.fe.frame = (f, e)) :
    talkerReadySensed s = handOffered e (byteSupplied b f s) := by
  have hc' : currentByte { s with line.sense.wait := false, line.sense.pend := true } = some b :=
    (currentByte_of_parts (s := s) rfl rfl rfl rfl).trans hc
  have hw' : s.hs.stall.isNone = false := hasStalled_running hw
  simp [talkerReadySensed, hc', hr, hu, hasStalled, hw', supplyByte, parseNext, hp, byteSupplied]

/-- OFFER_ASSERT after the set-up (R3, R50). -/
theorem offerAssert_offers {b : BusByte} {s : State} (hc : currentByte s = some b)
    (hw : s.hs.stall ≠ none) (hr : s.hs.role = .talker .awaitReady) (hu : s.hs.setUp ≠ none) :
    offerAssert s = { s with
      line.drive.offer := true
      hs.role := .talker .offered
      hs.setUp := none
      hs.stall := some 0
      fe.comparator := some b } := by
  obtain ⟨n, hn⟩ := Option.ne_none_iff_exists'.1 hu
  simp [offerAssert, hr, hn, hc, hasStalled_running hw]

/-- PEND_RELEASE_SENSED in OFFERED: the byte is withdrawn, and a LAST byte closes the frame (R7, R11, log 23). -/
theorem pendReleaseSensed_withdraws {b : BusByte} {s : State} (hc : currentByte s = some b)
    (hw : s.hs.stall ≠ none) (hr : s.hs.role = .talker .offered) :
    pendReleaseSensed s =
      let withdrawn : State := { s with
        line.sense.pend := false
        line.sense.offer := false
        line.drive.offer := false
        fe.comparator := none }
      if b.last then
        { withdrawn with
          line.guard := some 0
          hs.role := .talker .closing
          hs.stall := none
          hs.window := some 0 }
      else
        { withdrawn with
          hs.role := .talker .awaitReady
          hs.stall := some 0
          fe.sentBytes := s.fe.sentBytes + 1 } := by
  have hc' : currentByte { s with line.sense.pend := false } = some b :=
    (currentByte_of_parts (s := s) rfl rfl rfl rfl).trans hc
  have hw' : s.hs.stall.isNone = false := hasStalled_running hw
  simp [pendReleaseSensed, hc', hr, hasStalled, hw']

end Sys2Proof.Machine

open Sys2Proof Sys2Proof.Machine

/-- Settles O33: the byte's event is handed with the byte supplied, and only the final byte of an OPEN and a CANCEL's bytes have one at the talker. -/
theorem talkerOffersAndWithdraws : Obligations.TalkerOffersAndWithdraws := by
  intro b s hb hc hw
  refine ⟨fun f e hr hu hp => ⟨?_, ?_⟩, ?_, ?_, ?_⟩
  · intro noHeader noCancel noOpen
    refine nextIs_of_busChange rfl hb ?_
    rw [talkerReadySensed_supplies hc hw hr hu hp]
    cases e with
    | nothing | copies | malformed => rfl
    | cancelHeader address => exact absurd rfl (noHeader address)
    | openFinal address source tag deadline => exact absurd rfl (noOpen address source tag deadline)
    | cancelFinal address tag => exact absurd rfl (noCancel address tag)
  · rintro address source tag deadline rfl
    refine nextIs_of_busChange rfl hb ?_
    rw [talkerReadySensed_supplies hc hw hr hu hp]
    rfl
  · intro hr hu
    exact nextIs_of_busChange rfl hb (offerAssert_offers hc hw hr hu)
  · intro hr hl
    refine nextIs_of_busChange rfl hb ?_
    simp [pendReleaseSensed_withdraws hc hw hr, hl]
  · intro hr hl
    refine nextIs_of_busChange rfl hb ?_
    simp [pendReleaseSensed_withdraws hc hw hr, hl]
end

section
/-! The classification of a clear break at the view (R18, R77, R79). -/

namespace Sys2Proof.Machine

open Sys2Proof

/-- A clear break marks a WAITING or ARMED view closing and purges a CANCEL for its tag (R77, R79). -/
theorem closingSet_open {tag : Byte} {s : State}
    (h : s.rdv.view.state = .waiting ∨ s.rdv.view.state = .armed)
    (ht : s.rdv.view.tag = some tag) :
    closingSet s = { s with
      rdv.view.closing := true
      rdv.view.fire := .clear
      rdv.view.timer := none
      tm.slot := purgedSlot tag s.tm.slot } := by
  rcases h with h | h <;> simp [closingSet, h, ht, purgeCancel_eq, setView]

/-- A clear break ends an OBSERVING view (R79). -/
theorem closingSet_observing {s : State} (h : s.rdv.view.state = .observing) :
    closingSet s = { s with rdv.view := View.absent } := by
  simp [closingSet, h, setView]

/-- Without a view a clear break marks nothing. -/
theorem closingSet_none {s : State} (h : s.rdv.view.state = .none) : closingSet s = s := by
  simp [closingSet, h]

/-- An assertion of BRK not yet classified is counted a clear break, once (R18). -/
theorem clearBreakClassification_counts {n : Nat} {s : State} (h : s.line.measure = .timing n) :
    clearBreakClassification s = closingSet (handClearBreak { s with line.measure := .clear }) := by
  simp [clearBreakClassification, h]

end Sys2Proof.Machine

open Sys2Proof Sys2Proof.Machine

/-- Settles O40: the assertion is counted, then the view is marked by its state. -/
theorem clearBreakMarksTheView : Obligations.ClearBreakMarksTheView := by
  intro n s hb hm
  refine ⟨fun tag hv ht => ?_, fun hv => ?_, fun hv => ?_⟩ <;>
    refine nextIs_of_busChange rfl hb ?_ <;> rw [clearBreakClassification_counts hm]
  · exact closingSet_open hv ht
  · exact closingSet_observing hv
  · exact closingSet_none hv
end

section
/-! The withdrawal of an offer at a station other than its talker (R6, R10, R11, R38, R123–R127). -/

namespace Sys2Proof.Machine

open Sys2Proof

/-! ### Readiness (R10) -/

/-- A participant in PREPARING that is ready, with no byte on offer, releases WAIT and enters READY. -/
theorem becomeReady_readies {s : State} (hr : s.hs.role = .participant .preparing)
    (h : isReady s = true) (ho : s.line.sense.offer = false) :
    becomeReady s =
      { s with line.drive.wait := false, hs.role := .participant .ready } := by
  simp [becomeReady, hr, h, ho]

/-- A participant that is not ready stays as it is. -/
theorem becomeReady_unready {s : State} (h : isReady s = false) : becomeReady s = s := by
  simp [becomeReady, h]

/-- With a byte in the latch that was not LAST, readiness is the receive manager's alone. -/
theorem isReady_of_latch {l : Latch} {s : State} (hl : s.hs.latch = some l)
    (hlast : l.byte.last = false) : isReady s = !receptionWaits s := by
  simp [isReady, hl, hlast]

/-- After a LAST byte a participant waits for the frame to be decided. -/
theorem isReady_of_last {l : Latch} {s : State} (hl : s.hs.latch = some l)
    (hlast : l.byte.last = true) (hp : s.fe.frame.position ≠ .none) : isReady s = false := by
  simp [isReady, hl, hlast, hp]

/-! ### The request for a record slot (R123–R127) -/

/-- With a slot free it is reserved, under the policy of the address (R123, R125). -/
theorem requestSlot_reserves {adr src : Byte} {policy : Policy} {s : State}
    (hi : s.rm.state = .idle) (hc : s.rm.construction = none) (ha : s.fe.frame.address = some adr)
    (hs : s.fe.frame.source = some src) (hp : policyFor adr s = policy)
    (hn : s.rm.records.length < 32) :
    requestSlot s =
      { s with
        rm.policy := some policy
        rm.state := .storing
        rm.construction := some
          { source := src, address := adr, type := typeData, blocks := [], keptLength := 0,
            fullLength := 0, status := .complete } } := by
  simp [requestSlot, hi, slotFree, hc, ha, hs, hp, hn, reserveSlot]

/-- With no slot free a STRICT participant waits for one (R126). -/
theorem requestSlot_waits {adr : Byte} {s : State} (hi : s.rm.state = .idle)
    (hc : s.rm.construction = none) (ha : s.fe.frame.address = some adr)
    (hp : policyFor adr s = .strict) (hn : 32 ≤ s.rm.records.length) :
    requestSlot s = { s with rm.policy := some .strict, rm.state := .slotWait } := by
  simp [requestSlot, hi, slotFree, hc, ha, hp, hn]

/-- With no slot free a LENIENT participant drops the frame (R127). -/
theorem requestSlot_drops {adr : Byte} {s : State} (hi : s.rm.state = .idle)
    (hc : s.rm.construction = none) (ha : s.fe.frame.address = some adr)
    (hp : policyFor adr s = .lenient) (hn : 32 ≤ s.rm.records.length) :
    requestSlot s = { s with rm.policy := some .lenient, rm.state := .dropping } := by
  simp [requestSlot, hi, slotFree, hc, ha, hp, hn]

/-! ### The withdrawal at a participant (R6, R10, R11) -/

/-- An offer is withdrawn: OFFER is sensed released and a running silence timer starts again (R15). -/
def offerWithdrawn (s : State) : State :=
  { s with line.sense.offer := false, hs.silence := s.hs.silence.map (fun _ => 0) }

/-- A LAST byte is withdrawn in a frame in progress: guard and completion window start (R11, R16). -/
def lastByteWithdrawn (s : State) : State :=
  { offerWithdrawn s with line.guard := some 0, hs.window := some 0 }

/-- With no break held back, the withdrawal of an offer restarts the silence timer and no more. -/
theorem restartSilence_withdrawn {s : State} (h : s.line.heldFrame = []) :
    restartSilence { s with line.sense.offer := false } = offerWithdrawn s := by
  simp [restartSilence, offerWithdrawn, h]

/-- In a frame in progress a listener opens the completion window at the withdrawal of a LAST byte. -/
theorem lastWithdrawn_listener {s : State} (hp : s.fe.frame.position ≠ .none)
    (hr : s.hs.role = .bystander ∨ ∃ p, s.hs.role = .participant p) :
    lastWithdrawn (offerWithdrawn s) = lastByteWithdrawn s := by
  rcases hr with hr | ⟨p, hr⟩ <;>
    simp [lastWithdrawn, offerWithdrawn, lastByteWithdrawn, hp, hr]

/-- OFFER_RELEASE_SENSED in TAKEN. -/
theorem offerReleaseSensed_taken {b : BusByte} {s : State} (hr : s.hs.role = .participant .taken)
    (hob : s.line.observed = some b) (hp : s.fe.frame.position ≠ .none)
    (hh : s.line.heldFrame = []) :
    offerReleaseSensed s =
      releaseTaken (if b.last then lastByteWithdrawn s else offerWithdrawn s) := by
  have role : (offerWithdrawn s).hs.role = .participant .taken := hr
  have seen : observedLast (offerWithdrawn s) = b.last := by
    simp [observedLast, offerWithdrawn, hob]
  simp only [offerReleaseSensed, restartSilence_withdrawn hh, role, seen,
    lastWithdrawn_listener hp (.inr ⟨_, hr⟩)]

/-- OFFER_RELEASE_SENSED at a bystander. -/
theorem offerReleaseSensed_bystander {b : BusByte} {s : State} (hr : s.hs.role = .bystander)
    (hob : s.line.observed = some b) (hp : s.fe.frame.position ≠ .none)
    (hh : s.line.heldFrame = []) :
    offerReleaseSensed s = if b.last then lastByteWithdrawn s else offerWithdrawn s := by
  have role : (offerWithdrawn s).hs.role = .bystander := hr
  have seen : observedLast (offerWithdrawn s) = b.last := by
    simp [observedLast, offerWithdrawn, hob]
  simp only [offerReleaseSensed, restartSilence_withdrawn hh, role, seen,
    lastWithdrawn_listener hp (.inl hr)]

/-- PEND is asserted again: the participant prepares for the next byte. -/
def preparing (s : State) : State :=
  { s with line.drive.pend := true, hs.role := .participant .preparing }

/-- The choice a participant makes when it has asserted PEND again. -/
theorem releaseTaken_eq (s : State) :
    releaseTaken s =
      if latchOpensPayload s && s.fe.frame.position != .none then narrow (preparing s)
      else becomeReady (preparing s) := rfl

/-- The latch opens a payload with a header byte 3 that is not LAST (R6). -/
theorem latchOpensPayload_of_latch {b : BusByte} {p : Position} {s : State}
    (hl : s.hs.latch = some { byte := b, position := p }) :
    latchOpensPayload s = (p == .type && !b.last) := by
  simp [latchOpensPayload, hl]

/-- A station that header byte 3 does not address stands aside (R6, R38). -/
theorem narrow_aside {s : State} (h : s.fe.frame.addressed = some false) :
    narrow s = { s with
      fe.frame.standing := some .bystander
      line.drive.wait := false
      line.drive.pend := false
      hs.role := .bystander } := by
  simp [narrow, h]

/-- An addressed station stays a participant, and asks for a record slot for a DATA frame (R6). -/
theorem narrow_stays {s : State} (h : s.fe.frame.addressed = some true) :
    narrow s =
      let t : State := { s with fe.frame.standing := some .participant }
      becomeReady (if s.fe.frame.type = some typeData then requestSlot t else t) := by
  simp [narrow, h]

section Taken

/-! ### The byte of TAKEN, withdrawn -/

variable {b : BusByte} {p : Position} {s : State}
  (hr : s.hs.role = .participant .taken) (hob : s.line.observed = some b)
  (hl : s.hs.latch = some { byte := b, position := p }) (hp : s.fe.frame.position ≠ .none)
  (hh : s.line.heldFrame = [])

include hr hob hl hp hh

/-- After a LAST byte the participant prepares, with WAIT kept, until the frame is decided. -/
theorem offerReleaseSensed_last (hlast : b.last = true) :
    offerReleaseSensed s = preparing (lastByteWithdrawn s) := by
  have opens : latchOpensPayload (lastByteWithdrawn s) = (p == .type && !b.last) :=
    latchOpensPayload_of_latch hl
  rw [offerReleaseSensed_taken hr hob hp hh, hlast, if_pos rfl, releaseTaken_eq, opens, hlast,
    if_neg (by simp), becomeReady_unready]
  exact isReady_of_last (by exact hl) hlast hp

/-- After a byte before or behind header byte 3 the participant becomes ready if it can. -/
theorem offerReleaseSensed_prepares (hlast : b.last = false) (hpos : p ≠ .type) :
    offerReleaseSensed s = becomeReady (preparing (offerWithdrawn s)) := by
  have opens : latchOpensPayload (offerWithdrawn s) = (p == .type && !b.last) :=
    latchOpensPayload_of_latch hl
  rw [offerReleaseSensed_taken hr hob hp hh, hlast, if_neg (by decide), releaseTaken_eq, opens,
    if_neg (by simp [hpos])]

/-- After header byte 3 of a frame with a payload the participant narrows. -/
theorem offerReleaseSensed_narrows (hlast : b.last = false) (hpos : p = .type) :
    offerReleaseSensed s = narrow (preparing (offerWithdrawn s)) := by
  have opens : latchOpensPayload (offerWithdrawn s) = (p == .type && !b.last) :=
    latchOpensPayload_of_latch hl
  rw [offerReleaseSensed_taken hr hob hp hh, hlast, if_neg (by decide), releaseTaken_eq, opens,
    hpos, hlast, if_pos (by simpa [offerWithdrawn] using hp)]

end Taken

/-- An addressed station of a DATA frame asks for a record slot, then becomes ready if it can (R6, R123). -/
theorem narrow_requests {s : State} (h : s.fe.frame.addressed = some true)
    (ht : s.fe.frame.type = some typeData) :
    narrow s = becomeReady (requestSlot { s with fe.frame.standing := some .participant }) := by
  rw [narrow_stays h]
  simp only [ht, if_true]

/-- A participant in PREPARING whose latch holds no LAST byte is ready when the receive manager does not wait (R10). -/
theorem becomeReady_of_latch {l : Latch} {s : State} (hr : s.hs.role = .participant .preparing)
    (hl : s.hs.latch = some l) (hlast : l.byte.last = false) (ho : s.line.sense.offer = false)
    (hw : receptionWaits s = false) :
    becomeReady s = { s with line.drive.wait := false, hs.role := .participant .ready } :=
  becomeReady_readies hr (by rw [isReady_of_latch hl hlast, hw]; rfl) ho

/-- While the receive manager waits for a slot or a block the participant prepares on (R126, R129). -/
theorem becomeReady_awaits {s : State} (hw : receptionWaits s = true) : becomeReady s = s :=
  becomeReady_unready (by simp [isReady, hw])

/-! ### The withdrawal in NONE (R11, log 42) -/

/-- An abandonment reads and writes nothing of the guard. -/
theorem frameAbandoned_guard (g : Option Nat) (s : State) :
    frameAbandoned { s with line.guard := g } = { frameAbandoned s with line.guard := g } := by
  obtain ⟨_, _, _, _, _, _, _, _, _, shape⟩ := frameAbandoned_shape s
  rw [shape s rfl rfl rfl rfl rfl rfl rfl rfl,
    shape { s with line.guard := g } rfl rfl rfl rfl rfl rfl rfl rfl]

/-- OFFER_RELEASE_SENSED in NONE. -/
theorem offerReleaseSensed_none {b : BusByte} {s : State} (hr : s.hs.role = .none)
    (ha : s.arb.phase ≠ .standby) (hob : s.line.observed = some b)
    (hp : s.fe.frame.position ≠ .none) (hh : s.line.heldFrame = []) :
    offerReleaseSensed s =
      if b.last then
        { frameAbandoned (offerWithdrawn s) with
          line.guard := some 0, hs.window := none, fe.frame := FrameState.absent }
      else offerWithdrawn s := by
  have role : (offerWithdrawn s).hs.role = .none := hr
  have seen : observedLast (offerWithdrawn s) = b.last := by
    simp [observedLast, offerWithdrawn, hob]
  have failed : lastWithdrawn (offerWithdrawn s) =
      { frameAbandoned (offerWithdrawn s) with
        line.guard := some 0, hs.window := none, fe.frame := FrameState.absent } := by
    have hp' : (offerWithdrawn s).fe.frame.position ≠ .none := hp
    simp only [lastWithdrawn, abandonFrame, hp', role, if_false]
    rw [handAbandonment_eq (by exact ha), frameAbandoned_guard]
    rfl
  simp only [offerReleaseSensed, restartSilence_withdrawn hh, role, seen, failed]

end Sys2Proof.Machine

open Sys2Proof Sys2Proof.Machine

/-- Settles O32: by role, and at a participant by the byte in the latch and by what the receive manager answers. -/
theorem participantPreparesOrStandsAside : Obligations.ParticipantPreparesOrStandsAside := by
  refine ⟨fun b p s hb hr hob hl hp hh => ⟨fun hlast hpos haddr => ?_, fun hlast hpos hwait => ?_,
      fun hlast _ => ?_, fun hlast hpos haddr => ?_⟩,
    fun b s hb hr hob hp hh => ?_, fun b s hb hr ha hob hp hh => ?_⟩
  · refine nextIs_of_busChange rfl hb ?_
    rw [offerReleaseSensed_narrows hr hob hl hp hh hlast hpos, narrow_aside (by exact haddr)]
    rfl
  · refine nextIs_of_busChange rfl hb ?_
    rw [offerReleaseSensed_prepares hr hob hl hp hh hlast hpos,
      becomeReady_of_latch rfl (by exact hl) hlast rfl (by exact hwait)]
    rfl
  · exact nextIs_of_busChange rfl hb (offerReleaseSensed_last hr hob hl hp hh hlast)
  · have narrows := offerReleaseSensed_narrows hr hob hl hp hh hlast hpos
    refine ⟨fun htype hwait => ?_, fun adr src policy htype hi hc hadr hsrc hpol => ?_⟩
    · refine nextIs_of_busChange rfl hb ?_
      rw [narrows, narrow_stays (by exact haddr)]
      simp only
      rw [if_neg (by exact htype),
        becomeReady_of_latch rfl (by exact hl) hlast rfl (by exact hwait)]
      rfl
    · have hpolicy : policyFor adr s = policy := hpol.symm
      rw [narrow_requests (by exact haddr) (by exact htype)] at narrows
      refine ⟨fun hn => ?_, fun hn hstrict => ?_, fun hn hlenient => ?_⟩ <;>
        refine nextIs_of_busChange rfl hb ?_
      · rw [narrows, requestSlot_reserves (by exact hi) (by exact hc) (by exact hadr)
          (by exact hsrc) (by exact hpolicy) (by exact hn),
          becomeReady_of_latch rfl (by exact hl) hlast rfl (by rfl)]
        rfl
      · rw [narrows, requestSlot_waits (by exact hi) (by exact hc) (by exact hadr)
          (by exact hpolicy.trans hstrict) (by exact hn), becomeReady_awaits (by rfl)]
        rfl
      · rw [narrows, requestSlot_drops (by exact hi) (by exact hc) (by exact hadr)
          (by exact hpolicy.trans hlenient) (by exact hn),
          becomeReady_of_latch rfl (by exact hl) hlast rfl (by rfl)]
        rfl
  · have release := offerReleaseSensed_bystander hr hob hp hh
    exact ⟨fun hlast => nextIs_of_busChange rfl hb (by rw [release, hlast]; rfl),
      fun hlast => nextIs_of_busChange rfl hb (by rw [release, hlast]; rfl)⟩
  · have release := offerReleaseSensed_none hr ha hob hp hh
    exact ⟨fun hlast => nextIs_of_busChange rfl hb (by rw [release, hlast]; rfl),
      fun hlast => nextIs_of_busChange rfl hb (by rw [release, hlast]; rfl)⟩
end

section
/-! The release of BRK (R18, R19, R29, R52, R66, R80, R164). -/

namespace Sys2Proof.Machine

open Sys2Proof

/-! ### The close of a view (R65, R72, R74, R80, R82) -/

/-- Without a soft reset in progress a release of TRG is made (R81). -/
theorem releaseTrg_eq {s : State} (h : s.ctl.resetInProgress = false) :
    releaseTrg s = { s with line.drive.trg := false } := by
  simp [releaseTrg, h]

/-- With a place free an outcome record joins the tail (R86). -/
theorem addOutcome_joins {s : State} (h : s.rdv.outcomes.length < 4) (r : OutcomeRecord) :
    addOutcome r s = { s with rdv.outcomes := s.rdv.outcomes ++ [r] } := by
  simp [addOutcome, h]

/-- The record of a view that has its group, its tag and its role. -/
theorem viewRecord_eq {group tag : Byte} {role : RdvRole} {v : View} (hg : v.group = some group)
    (ht : v.tag = some tag) (hr : v.role = some role) (o : RdvOutcome) (closedAt : ClockTime) :
    viewRecord v o closedAt =
      { tag := tag, group := group, role := role, outcome := o, reason := none,
        expiredHere := v.expiredHere, cancelSentHere := v.cancelSentHere,
        openedAt := v.openedAt, closedAt := closedAt } := by
  simp [viewRecord, hg, ht, hr]

/-- The close of a view, in one action: TRG released, the record written, a CANCEL for the tag purged, NONE. -/
theorem closeView_eq {group tag : Byte} {role : RdvRole} {s : State}
    (hg : s.rdv.view.group = some group) (ht : s.rdv.view.tag = some tag)
    (hr : s.rdv.view.role = some role) (hres : s.ctl.resetInProgress = false)
    (hn : s.rdv.outcomes.length < 4) (o : RdvOutcome) (closedAt : ClockTime) :
    closeView o closedAt s = { s with
      line.drive.trg := false
      rdv.view := View.absent
      tm.slot := purgedSlot tag s.tm.slot
      rdv.outcomes := s.rdv.outcomes ++
        [{ tag := tag, group := group, role := role, outcome := o, reason := none,
           expiredHere := s.rdv.view.expiredHere, cancelSentHere := s.rdv.view.cancelSentHere,
           openedAt := s.rdv.view.openedAt, closedAt := closedAt }] } := by
  simp only [closeView, viewRecord_eq hg ht hr, releaseTrg_eq hres]
  rw [addOutcome_joins (by exact hn), purgeCancel_eq, ht]
  rfl

/-! ### What the release counts (R18) -/

/-- The release of BRK as it is sensed, with the assertion counted: a frame break unless it was classified a clear break. -/
def breakCounted (own req clear : Bool) (s : State) : State :=
  { s with
    line.sense.brk := false
    line.sense.own := own
    line.sense.req := req
    line.measure := .idle
    cause.bus := s.cause.bus || !clear
    cause.counters.frameBreaks :=
      if clear then s.cause.counters.frameBreaks
      else countUp s.cause.counters.frameBreaks }

/-- BRK_RELEASE counts the assertion, then makes the clearing of a soft reset or goes on. -/
theorem brkRelease_eq {own req clear : Bool} {n : Nat} {s : State}
    (hb : s.line.sense.brk = true) (hm : s.line.measure = if clear then .clear else .timing n) :
    brkRelease own req s =
      if s.ctl.resetInProgress && !clearBreakHeld s then
        softResetClearing (breakCounted own req clear s)
      else releaseOrdinary (breakCounted own req clear s) := by
  have counted : classifyAtRelease
      { s with line.sense.brk := false, line.sense.own := own, line.sense.req := req } =
        breakCounted own req clear s := by
    cases clear <;> simp [classifyAtRelease, hm, breakCounted, handFrameBreak]
  simp only [brkRelease, hb, if_true, counted]
  rfl

/-- Outside a soft reset, and while a clear break of its own is held back, the station goes on. -/
theorem brkRelease_goesOn {own req clear : Bool} {n : Nat} {s : State}
    (hb : s.line.sense.brk = true) (hm : s.line.measure = if clear then .clear else .timing n)
    (h : s.ctl.resetInProgress = false ∨ clearBreakHeld s = true) :
    brkRelease own req s = releaseOrdinary (breakCounted own req clear s) := by
  rw [brkRelease_eq hb hm]
  rcases h with h | h <;> simp [h]

/-- A soft reset with no clear break held back makes the clearing (R164). -/
theorem brkRelease_clears {own req clear : Bool} {n : Nat} {s : State}
    (hb : s.line.sense.brk = true) (hm : s.line.measure = if clear then .clear else .timing n)
    (hr : s.ctl.resetInProgress = true) (hh : clearBreakHeld s = false) :
    brkRelease own req s = softResetClearing (breakCounted own req clear s) := by
  rw [brkRelease_eq hb hm, hr, hh]
  rfl

/-! ### The return to rest (R19, R29) -/

/-- A station that was participating rests again, and its silence timer runs while OWN or REQ is sensed. -/
def restedAtRelease (s : State) : State :=
  { s with
    line.drive.pend := true
    line.drive.wait := false
    hs.role := .participant .ready
    hs.rejoin := false
    hs.silence := if s.line.sense.own || s.line.sense.req then some 0 else none }

/-- The return to rest at a station that was participating. -/
theorem rejoinAtRelease_eq {s : State} (h : s.hs.rejoin = true) :
    rejoinAtRelease s = restedAtRelease s := by
  simp [rejoinAtRelease, h, resumeSilence, restAsParticipant, restedAtRelease]

/-- The arbiter stays where it is while OWN or REQ is sensed asserted. -/
theorem arbiterAtRelease_stays {s : State}
    (h : s.line.sense.own = true ∨ s.line.sense.req = true) : arbiterAtRelease s = s := by
  rcases h with h | h <;> simp [arbiterAtRelease, h]

/-- With OWN and REQ sensed released an arbiter in OUTSIDE enters STANDBY (R29). -/
theorem arbiterAtRelease_asks {s : State} (ha : s.arb.phase = .outside)
    (ho : s.line.sense.own = false) (hr : s.line.sense.req = false) :
    arbiterAtRelease s = enterStandby s := by
  simp [arbiterAtRelease, ha, ho, hr]

/-- A station that goes on, with no entry into FAULTED awaited. -/
theorem releaseOrdinary_rests {s : State} (hf : s.ctl.pendingFault = none) :
    releaseOrdinary s = arbiterAtRelease (rejoinAtRelease (breakReleasedAtView s)) := by
  simp [releaseOrdinary, hf]

/-- A station whose entry into FAULTED waited for the release enters it (R52, R152). -/
theorem releaseOrdinary_faults {reason : StationReason} {s : State}
    (hf : s.ctl.pendingFault = some reason) (hr : s.ctl.resetInProgress = false) :
    releaseOrdinary s = leaveBus .faulted reason (breakReleasedAtView s) := by
  simp [releaseOrdinary, hf, hr]

/-- In a soft reset no entry into FAULTED is made (R163). -/
theorem releaseOrdinary_resetting {s : State} (hr : s.ctl.resetInProgress = true) :
    releaseOrdinary s = arbiterAtRelease (rejoinAtRelease (breakReleasedAtView s)) := by
  cases hf : s.ctl.pendingFault <;> simp [releaseOrdinary, hf, hr]

/-- Without closing set and without a fire held the release tells the view nothing. -/
theorem breakReleasedAtView_clear {s : State} (hc : s.rdv.view.closing = false)
    (hf : s.rdv.view.fire = .clear) : breakReleasedAtView s = s := by
  simp [breakReleasedAtView, hc, hf]

/-- A view with closing set closes BROKEN (R80). -/
theorem breakReleasedAtView_closes {s : State} (hc : s.rdv.view.closing = true) :
    breakReleasedAtView s = closeView .broken s.ctl.clock s := by
  simp [breakReleasedAtView, hc]

/-- A fire held across a frame break is carried out (R66). -/
theorem breakReleasedAtView_fires {sensedAt : ClockTime} {s : State}
    (hc : s.rdv.view.closing = false) (hf : s.rdv.view.fire = .held sensedAt) :
    breakReleasedAtView s = fire sensedAt s := by
  simp [breakReleasedAtView, hc, hf]

/-! ### The entry into FAULTED at the release (R52, R82, R120, R145, R148) -/

/-- A purge leaves a frame in the slot with its kind and its state. -/
theorem purgedSlot_some {tag : Byte} {x : Option SlotFrame} {f : SlotFrame}
    (h : purgedSlot tag x = some f) : ∃ g, x = some g ∧ f.kind = g.kind ∧ f.state = g.state := by
  cases x with
  | none => simp [purgedSlot] at h
  | some g =>
    refine ⟨g, rfl, ?_⟩
    simp only [purgedSlot] at h
    split at h
    · split_ifs at h <;> obtain rfl := Option.some.inj h <;> exact ⟨rfl, rfl⟩
    all_goals
      obtain rfl := Option.some.inj h
      exact ⟨rfl, rfl⟩

/-- No frame is SELECTED exactly when neither the slot's nor any descriptor is. -/
theorem selectedFrame_none {s : State} :
    selectedFrame s = none ↔
      (∀ f, s.tm.slot = some f → f.state ≠ .selected) ∧
        findDescriptor s (·.state == .selected) = none := by
  cases hs : s.tm.slot with
  | none => simp [selectedFrame, hs]
  | some f => by_cases hf : f.state = .selected <;> simp [selectedFrame, hs, hf]

/-- A purge selects no frame. -/
theorem selectedFrame_purged {tag : Byte} {s : State} (h : selectedFrame s = none) :
    selectedFrame { s with tm.slot := purgedSlot tag s.tm.slot } = none := by
  obtain ⟨hslot, hd⟩ := selectedFrame_none.1 h
  refine selectedFrame_none.2 ⟨fun f hf => ?_, hd⟩
  obtain ⟨g, hg, -, hstate⟩ := purgedSlot_some hf
  exact hstate ▸ hslot g hg

/-- With no frame SELECTED none returns to its queue. -/
theorem returnSelected_none {s : State} (h : selectedFrame s = none) : returnSelected s = s := by
  simp [returnSelected, h]

/-- The slot holds no OPEN. -/
def SlotWithoutOpen (s : State) : Prop :=
  ∀ f group tag deadline, s.tm.slot = some f → f.kind ≠ .openFrame group tag deadline

/-- A purge places no OPEN. -/
theorem SlotWithoutOpen.purged {tag : Byte} {s t : State} (h : SlotWithoutOpen s)
    (e : t.tm.slot = purgedSlot tag s.tm.slot) : SlotWithoutOpen t := by
  intro f group tag' deadline hf
  obtain ⟨g, hg, hkind, -⟩ := purgedSlot_some (e.symm.trans hf)
  exact hkind ▸ h g group tag' deadline hg

/-- Without an OPEN the slot is emptied and nothing is recorded (R119). -/
theorem emptySlotAtEntry_eq {s : State} (h : SlotWithoutOpen s) :
    emptySlotAtEntry s = setSlot none s := by
  simp only [emptySlotAtEntry]
  split
  · rename_i f hf
    split
    · rename_i hk
      exact absurd hk (h _ _ _ _ hf)
    all_goals rfl
  · rename_i hf
    simp [setSlot, ← hf]

/-- A record joins the outcome queue: only the count of the lost ones can move in the cause unit. -/
@[simp] theorem addOutcome_causes (r : OutcomeRecord) (s : State) :
    (addOutcome r s).cause.bus = s.cause.bus ∧ (addOutcome r s).cause.mask = s.cause.mask ∧
    (addOutcome r s).cause.counters.frameBreaks = s.cause.counters.frameBreaks := by
  simp only [addOutcome]
  split <;> simp

/-- The close of a view in the blocks that the slot and the record of it lie in. -/
@[simp] theorem closeView_sets (o : RdvOutcome) (closedAt : ClockTime) (s : State) :
    (closeView o closedAt s).tm =
      { s.tm with slot := purgedSlot (s.rdv.view.tag.getD 0) s.tm.slot } ∧
    (closeView o closedAt s).cause.bus = s.cause.bus ∧
    (closeView o closedAt s).cause.mask = s.cause.mask ∧
    (closeView o closedAt s).cause.counters.frameBreaks = s.cause.counters.frameBreaks := by
  simp [closeView, purgeCancel_eq, setView]

/-- The view of a station that leaves the bus (R82), in the same blocks. -/
theorem viewLeavesBus_sets (s : State) :
    ((viewLeavesBus s).tm = s.tm ∨
      ∃ tag, (viewLeavesBus s).tm = { s.tm with slot := purgedSlot tag s.tm.slot }) ∧
    (viewLeavesBus s).cause.bus = s.cause.bus ∧ (viewLeavesBus s).cause.mask = s.cause.mask ∧
    (viewLeavesBus s).cause.counters.frameBreaks = s.cause.counters.frameBreaks := by
  simp only [viewLeavesBus]
  split
  case h_1 | h_2 | h_3 => exact ⟨.inr ⟨_, (closeView_sets _ _ _).1⟩, by simp⟩
  all_goals exact ⟨.inl rfl, by simp⟩

/-- A rendezvous held at the entry is written BROKEN (R82). -/
theorem viewLeavesBus_outcomes_held {group tag : Byte} {role : RdvRole} {s : State}
    (h : s.rdv.view.state = .waiting ∨ s.rdv.view.state = .armed ∨
      s.rdv.view.state = .cancelling)
    (hg : s.rdv.view.group = some group) (ht : s.rdv.view.tag = some tag)
    (hr : s.rdv.view.role = some role) (hres : s.ctl.resetInProgress = false)
    (hn : s.rdv.outcomes.length < 4) :
    (viewLeavesBus s).rdv.outcomes = s.rdv.outcomes ++
      [{ tag := tag, group := group, role := role, outcome := .broken, reason := none,
         expiredHere := s.rdv.view.expiredHere, cancelSentHere := s.rdv.view.cancelSentHere,
         openedAt := s.rdv.view.openedAt, closedAt := s.ctl.clock }] := by
  rcases h with h | h | h <;>
    simp only [viewLeavesBus, h] <;>
    rw [closeView_eq (by exact hg) (by exact ht) (by exact hr) (by exact hres) (by exact hn)]

/-- Without a view nothing is written at the entry. -/
theorem viewLeavesBus_outcomes_absent {s : State} (h : s.rdv.view = View.absent) :
    (viewLeavesBus s).rdv.outcomes = s.rdv.outcomes := by
  simp [viewLeavesBus, h, View.absent]

/-- The entry into OFFLINE or FAULTED with nothing SELECTED, nothing in reception and no OPEN in the slot. -/
theorem leaveBus_quietly {target : StationState} {reason : StationReason} {s : State}
    (hi : s.rm.state = .idle) (hsel : selectedFrame s = none) (ho : SlotWithoutOpen s) :
    LeftTheBus s (settleCauses (leaveBus target reason s)) target reason ∧
      (leaveBus target reason s).cause.bus = s.cause.bus ∧
      (leaveBus target reason s).cause.counters.frameBreaks = s.cause.counters.frameBreaks ∧
      (leaveBus target reason s).rdv.outcomes = (viewLeavesBus s).rdv.outcomes := by
  obtain ⟨htm, hcause⟩ := viewLeavesBus_sets s
  have hslot : SlotWithoutOpen (viewLeavesBus s) := by
    rcases htm with htm | ⟨tag, htm⟩
    · intro f group tag deadline hf
      exact ho f group tag deadline (by rw [← hf, htm])
    · exact ho.purged (tag := tag) (by rw [htm])
  simp only [leaveBus, returnSelected_none hsel, hi, if_true, emptySlotAtEntry_eq hslot]
  rcases htm with htm | ⟨tag, htm⟩ <;> simp [LeftTheBus, htm, hcause, settleCauses]

/-- What is kept of a state stays kept of one that differs on the bus side only. -/
theorem LeftTheBus.of_kept {s u t : State} {target : StationState} {reason : StationReason}
    (h : LeftTheBus u t target reason) (htm : ∃ slot, u.tm = { s.tm with slot := slot })
    (hrm : u.rm = s.rm) (hmem : u.mem = s.mem) (hctl : u.ctl = s.ctl)
    (hmask : u.cause.mask = s.cause.mask) : LeftTheBus s t target reason := by
  obtain ⟨slot, htm⟩ := htm
  simpa only [LeftTheBus, htm, hrm, hmem, hctl, hmask] using h

/-- A station whose entry into FAULTED waited leaves the bus at the release, with a rendezvous it held written BROKEN (R52, R80, R82, R152). -/
theorem releaseOrdinary_faulted {reason : StationReason} {s : State}
    (hp : s.ctl.pendingFault = some reason) (hres : s.ctl.resetInProgress = false)
    (hi : s.rm.state = .idle) (hsel : selectedFrame s = none) (ho : SlotWithoutOpen s)
    (hf : s.rdv.view.fire = .clear) :
    let t := releaseOrdinary s
    LeftTheBus s (settleCauses t) .faulted reason ∧
      t.cause.bus = s.cause.bus ∧
      t.cause.counters.frameBreaks = s.cause.counters.frameBreaks ∧
      (s.rdv.view = View.absent → t.rdv.outcomes = s.rdv.outcomes) ∧
      ∀ group tag role,
        s.rdv.view.state = .waiting ∨ s.rdv.view.state = .armed ∨
          s.rdv.view.state = .cancelling →
        s.rdv.view.group = some group → s.rdv.view.tag = some tag →
        s.rdv.view.role = some role → s.rdv.outcomes.length < 4 →
        t.rdv.outcomes = s.rdv.outcomes ++
          [{ tag := tag, group := group, role := role, outcome := .broken, reason := none,
             expiredHere := s.rdv.view.expiredHere, cancelSentHere := s.rdv.view.cancelSentHere,
             openedAt := s.rdv.view.openedAt, closedAt := s.ctl.clock }] := by
  intro t
  have ht : t = leaveBus .faulted reason (breakReleasedAtView s) :=
    releaseOrdinary_faults hp hres
  rw [ht]
  cases hc : s.rdv.view.closing with
  | false =>
    rw [breakReleasedAtView_clear hc hf]
    obtain ⟨hleft, hbus, hcount, hout⟩ :=
      leaveBus_quietly (target := .faulted) (reason := reason) hi hsel ho
    refine ⟨hleft, hbus, hcount, fun hv => ?_, fun group tag role hv hg htag hr hn => ?_⟩
    · rw [hout, viewLeavesBus_outcomes_absent hv]
    · rw [hout, viewLeavesBus_outcomes_held hv hg htag hr hres hn]
  | true =>
    rw [breakReleasedAtView_closes hc]
    obtain ⟨htm, hbus', hmask', hcount'⟩ := closeView_sets .broken s.ctl.clock s
    have hsel' : selectedFrame (closeView .broken s.ctl.clock s) = none := by
      rw [selectedFrame_of_tm (s := { s with
        tm.slot := purgedSlot (s.rdv.view.tag.getD 0) s.tm.slot }) htm]
      exact selectedFrame_purged hsel
    obtain ⟨hleft, hbus, hcount, hout⟩ :=
      leaveBus_quietly (target := .faulted) (reason := reason)
        (s := closeView .broken s.ctl.clock s) (by simpa using hi) hsel'
        (ho.purged (congrArg TransmitManager.slot htm))
    rw [viewLeavesBus_outcomes_absent (closeView_view _ _ _)] at hout
    refine ⟨hleft.of_kept ⟨_, htm⟩ (by simp) (by simp) (by simp) hmask', hbus.trans hbus',
      hcount.trans hcount', fun hv => ?_, fun group tag role _ hg htag hr hn => ?_⟩
    · rw [hv] at hc
      cases hc
    · rw [hout, closeView_eq hg htag hr hres hn]

/-! ### The release in a soft reset (R163, R164) -/

/-- The request for the bus writes no level but that of D0–D7, and measures nothing. -/
@[simp] theorem askArbiter_senses_kept (s : State) :
    (askArbiter s).line.sense = s.line.sense ∧ (askArbiter s).line.measure = s.line.measure := by
  simp only [askArbiter]
  repeat' split
  all_goals simp [openWindow]

/-- The entry into STANDBY leaves BRK and its measurement alone. -/
@[simp] theorem enterStandby_brk (s : State) :
    (enterStandby s).line.sense.brk = s.line.sense.brk ∧
    (enterStandby s).line.measure = s.line.measure := by
  simp [enterStandby]

/-- A release of TRG measures nothing. -/
@[simp] theorem releaseTrg_measure (s : State) :
    (releaseTrg s).line.measure = s.line.measure := by
  simp only [releaseTrg]
  split <;> rfl

/-- The return to rest leaves BRK and its measurement alone. -/
@[simp] theorem restAtRelease_brk (s : State) :
    (arbiterAtRelease (rejoinAtRelease s)).line.sense.brk = s.line.sense.brk ∧
    (arbiterAtRelease (rejoinAtRelease s)).line.measure = s.line.measure := by
  have rested : (rejoinAtRelease s).line.sense = s.line.sense ∧
      (rejoinAtRelease s).line.measure = s.line.measure := by
    simp only [rejoinAtRelease]
    split <;> simp
  simp only [arbiterAtRelease]
  split <;> simp [rested]

/-- The settling of the cause unit keeps what is sticky, the mask and the counters. -/
@[simp] theorem settleCauses_sticky (s : State) :
    (settleCauses s).cause.port = s.cause.port ∧
    (settleCauses s).cause.station = s.cause.station ∧
    (settleCauses s).cause.bus = s.cause.bus ∧ (settleCauses s).cause.reason = s.cause.reason ∧
    (settleCauses s).cause.mask = s.cause.mask ∧
    (settleCauses s).cause.counters = s.cause.counters := by
  simp [settleCauses]

/-- The answer of BRK_RELEASE at a station that senses the lines. -/
theorem exec_brkRelease {own req : Bool} {s : State} (h : OnBus s) :
    exec (.brkRelease own req) s = .next (settleCauses (brkRelease own req s)) :=
  actOnLine_sensing (note := fun p => { p with brk := false, own := own, req := req }) h

/-- What the release of BRK does to the view leaves BRK and its measurement alone. -/
@[simp] theorem breakReleasedAtView_brk (s : State) :
    (breakReleasedAtView s).line.sense.brk = s.line.sense.brk ∧
    (breakReleasedAtView s).line.measure = s.line.measure := by
  simp only [breakReleasedAtView, fire]
  repeat' split
  all_goals simp [closeView]

end Sys2Proof.Machine

open Sys2Proof Sys2Proof.Machine

/-- Settles O41: the assertion is counted, and the station clears, leaves the bus or goes on; where it goes on, the view, the return to rest and the arbiter act in this order. -/
theorem breakReleaseReturnsOrLeaves : Obligations.BreakReleaseReturnsOrLeaves := by
  intro own req clear n s hb hbrk hm
  refine ⟨fun hp hres hrejoin ha => ?_, fun reason hp hres hi hsel ho hf => ?_,
    fun hres hheld => ?_, fun hres hheld => ?_⟩
  · have goesOn := brkRelease_goesOn (own := own) (req := req) hbrk hm (.inl hres)
    rw [releaseOrdinary_rests (by exact hp)] at goesOn
    refine ⟨fun hc hf => ?_, fun group tag role hon hg ht hr hn => ?_⟩
    · rw [breakReleasedAtView_clear (by exact hc) (by exact hf),
        rejoinAtRelease_eq (by exact hrejoin)] at goesOn
      refine ⟨fun hon => ?_, fun ho hr => ?_⟩
      · rw [arbiterAtRelease_stays (by exact hon)] at goesOn
        exact nextIs_brkRelease hb goesOn
      · rw [arbiterAtRelease_asks (by exact ha) (by exact ho) (by exact hr)] at goesOn
        exact nextIs_brkRelease hb goesOn
    · refine ⟨fun hc => ?_, fun at' hc hf => ?_⟩
      · rw [breakReleasedAtView_closes (by exact hc), closeView_eq (by exact hg) (by exact ht)
          (by exact hr) (by exact hres) (by exact hn), rejoinAtRelease_eq (by exact hrejoin),
          arbiterAtRelease_stays (by exact hon)] at goesOn
        exact nextIs_brkRelease hb goesOn
      · rw [breakReleasedAtView_fires (by exact hc) (by exact hf), fire,
          closeView_eq (by exact hg) (by exact ht) (by exact hr) (by exact hres) (by exact hn),
          rejoinAtRelease_eq (by exact hrejoin), arbiterAtRelease_stays (by exact hon)] at goesOn
        exact nextIs_brkRelease hb goesOn
  · have goesOn := brkRelease_goesOn (own := own) (req := req) hbrk hm (.inl hres)
    have left := releaseOrdinary_faulted (s := breakCounted own req clear s) hp hres hi
      ((selectedFrame_of_tm rfl).trans hsel) ho hf
    rw [← goesOn] at left
    obtain ⟨hleft, hbus, hcount, habsent, hwritten⟩ := left
    exact ⟨settleCauses (brkRelease own req s), exec_brkRelease hb,
      hleft.of_kept ⟨_, rfl⟩ rfl rfl rfl rfl, hbus, hcount, by rw [goesOn]; simp [breakCounted],
      habsent, hwritten⟩
  · have onBus : s.ctl.state ≠ .offline := by
      intro h
      have := hb.2
      simp [senses, h] at this
    refine ⟨settleCauses (brkRelease own req s), exec_brkRelease hb, ?_⟩
    rw [brkRelease_clears hbrk hm hres hheld]
    simp [softResetClearing, onBus, CauseUnit.cleared, breakCounted, descriptorBlocks,
      recordBlocks, constructionBlocks]
  · have goesOn := brkRelease_goesOn (own := own) (req := req) hbrk hm (.inr hheld)
    rw [releaseOrdinary_resetting (by exact hres)] at goesOn
    refine ⟨settleCauses (brkRelease own req s), exec_brkRelease hb, ?_⟩
    rw [goesOn]
    simp [breakCounted]
end

section
/-! The end of an attempt (R109–R119), and the ends of a frame at its talker (R8, R11). -/

namespace Sys2Proof.Machine

open Sys2Proof

/-! ### Whose attempt ends, and how (R110–R119) -/

/-- Without an outcome handed there is none to forget. -/
theorem handed_forgotten {s : State} (h : s.tm.handed = none) :
    { s with tm.handed := none } = s := by
  rw [← h]

/-- The attempt of a descriptor in flight. -/
theorem endAttempt_descriptor {i : Fin 16} {s : State}
    (h : inFlightFrame s = some (.descriptor i)) (o : TxOutcome) (atSource : Bool) :
    endAttempt o atSource s = endDescriptorAttempt i o { s with tm.handed := none } := by
  simp [endAttempt, h]

/-- The attempt of the slot frame in flight. -/
theorem endAttempt_slot {f : SlotFrame} {s : State} (hs : s.tm.slot = some f)
    (hf : f.state = .inFlight) (o : TxOutcome) (atSource : Bool) :
    endAttempt o atSource s = endSlotAttempt f o atSource { s with tm.handed := none } := by
  simp [endAttempt, inFlightFrame, hs, hf]

/-- A frame back at the head of its class's queue (R100). -/
theorem queueAtHead_eq (i : Fin 16) (s : State) :
    queueAtHead i s = { s with
      tm.table := s.tm.table.set i { s.tm.table[i] with state := .queued }
      tm.urgent := if s.tm.table[i].cls = .urgent then i :: s.tm.urgent else s.tm.urgent
      tm.normal := if s.tm.table[i].cls = .normal then i :: s.tm.normal else s.tm.normal } := by
  simp only [queueAtHead]
  split <;> rename_i hc <;> simp only [hc, if_true, reduceCtorEq, if_false] <;> rfl

/-- Outside PREPARING, with nothing in reception, a descriptor that is finished gives its blocks back and nothing waits for them (R112). -/
theorem finishDescriptor_eq {s : State} (hr : s.hs.role ≠ .participant .preparing)
    (hi : s.rm.state = .idle) (i : Fin 16) (o : TxOutcome) :
    finishDescriptor i o s = { s with
      tm.table := s.tm.table.set i
        { s.tm.table[i] with
          state := .done, outcome := some o, completedAt := some s.ctl.clock, blocks := [] }
      tm.completion := s.tm.completion ++ [i]
      mem.pool := s.mem.pool ++ s.tm.table[i].blocks } := by
  have unawaited : NoRoomAwaited s := ⟨by simp [receptionWaits, hi], fun h => absurd h hr⟩
  simp only [finishDescriptor]
  rw [freeBlocks_unawaited (by exact unawaited)]
  rfl

/-- A slot frame with its removal request set leaves the slot, whatever the outcome (R119). -/
theorem endSlotAttempt_removed {f : SlotFrame} (h : f.removal = true) (o : TxOutcome)
    (atSource : Bool) (s : State) : endSlotAttempt f o atSource s = setSlot none s := by
  simp [endSlotAttempt, h]

/-- The end of a HELLO's attempt. -/
theorem endSlotAttempt_hello {f : SlotFrame} (h : f.removal = false) (hk : f.kind = .hello)
    (o : TxOutcome) (atSource : Bool) (s : State) :
    endSlotAttempt f o atSource s = endHello f o atSource s := by
  simp [endSlotAttempt, h, hk]

/-- The end of an OPEN's attempt. -/
theorem endSlotAttempt_open {f : SlotFrame} {group tag : Byte} {deadline : Deadline}
    (h : f.removal = false) (hk : f.kind = .openFrame group tag deadline)
    (o : TxOutcome) (atSource : Bool) (s : State) :
    endSlotAttempt f o atSource s = endOpen f group tag o s := by
  simp [endSlotAttempt, h, hk]

/-- The end of a CANCEL's attempt. -/
theorem endSlotAttempt_cancel {f : SlotFrame} {group tag : Byte}
    (h : f.removal = false) (hk : f.kind = .cancelFrame group tag)
    (o : TxOutcome) (atSource : Bool) (s : State) :
    endSlotAttempt f o atSource s = endCancel f tag o s := by
  simp [endSlotAttempt, h, hk]

/-- Outside a soft reset a HELLO sent joins the station (R151). -/
theorem stationJoined_eq {s : State} (h : s.ctl.resetInProgress = false) :
    stationJoined s = handStation .joined
      { s with ctl.state := .online, ctl.joinPhase := none, ctl.leaveRequested := false } := by
  simp [stationJoined, h]

/-- With a place free an OPEN that leaves the slot is recorded NOT_OPENED (R62). -/
theorem notOpened_eq {s : State} (h : s.rdv.outcomes.length < 4) (group tag : Byte)
    (reason : NotOpenedReason) :
    notOpened group tag reason s = { s with
      rdv.outcomes := s.rdv.outcomes ++
        [{ tag := tag, group := group, role := .opener, outcome := .notOpened,
           reason := some reason, expiredHere := false, cancelSentHere := false,
           openedAt := none, closedAt := s.ctl.clock }] } :=
  addOutcome_joins h _

/-! ### The talker at rest again (R8, R11, R26) -/

/-- The talker that rests releases OWN, asserts PEND, and its arbiter is in OUTSIDE. -/
theorem leaveTalker_eq (s : State) :
    leaveTalker s = { s with
      line.drive.own := false
      line.drive.pend := true
      line.drive.wait := false
      hs.role := .participant .ready
      hs.stall := none
      hs.setUp := none
      hs.window := none
      hs.complete := false
      hs.silence := if s.line.sense.own || s.line.sense.req then some 0 else none
      fe.comparator := none
      arb.phase := .outside
      arb.bid := none
      arb.settle := none
      arb.roundGap := none } := rfl

/-! ### NO_LISTENER (R8) -/

/-- The talker that finds no participant: WAIT and PEND sensed released, the lines of the byte released. -/
def unheard (s : State) : State :=
  { s with
    line.sense.wait := false
    line.sense.pend := false
    line.drive.data := 0
    line.drive.kind := false
    line.drive.last := false }

/-- With nothing in reception only the rendezvous unit hears of an abandonment (R54). -/
theorem handAbandonment_idle {s : State} (h : s.rm.state = .idle) :
    handAbandonment s = rendezvousAbandonment s.fe.frame s := by
  simp [handAbandonment, h]

/-- NO_LISTENER with no outcome handed before: the frame is abandoned and its attempt ends with NO_LISTENER. -/
theorem noListener_eq {t s : State} (hr : s.hs.role = .talker .awaitReady)
    (hw : s.hs.stall ≠ none) (hi : s.rm.state = .idle)
    (ht : rendezvousAbandonment s.fe.frame (unheard s) = t) (hn : t.tm.handed = none) :
    noListener s = leaveTalker (endAttempt .noListener false (endFrameState t)) := by
  have hw' : s.hs.stall.isNone = false := hasStalled_running hw
  have abandoned : handAbandonment (releaseByte
      { s with line.sense.wait := false, line.sense.pend := false }) = t := by
    rw [handAbandonment_idle (by exact hi), ← ht]
    rfl
  simp [noListener, hr, hasStalled, hw', abandoned, hn]

/-- The abandonment of a frame that is neither an OPEN nor a CANCEL tells the rendezvous unit nothing. -/
theorem rendezvousAbandonment_other {f : FrameState} (ho : f.type ≠ some typeOpen)
    (hc : f.type ≠ some typeCancel) (s : State) : rendezvousAbandonment f s = s := by
  simp [rendezvousAbandonment, ho, hc]

/-- With the slot in use no automatic CANCEL is placed, and its mark is taken from an open view (R76). -/
theorem placeDeferredCancel_occupied {f : SlotFrame} {s : State} (hs : s.tm.slot = some f) :
    ∃ e, placeDeferredCancel s = { s with rdv.view.expiredCancelling := e } := by
  simp only [placeDeferredCancel]
  split
  · exact ⟨false, by simp [placeCancel, setView, hs]⟩
  · exact ⟨s.rdv.view.expiredCancelling, rfl⟩

/-- A pending-arm moves the TRG drive and arms a WAITING view (R73). -/
theorem applyPendingArm_moves (s : State) :
    ∃ trg st pa, applyPendingArm s =
        { s with line.drive.trg := trg, rdv.view.state := st, rdv.view.pendingArm := pa } ∧
      (st = s.rdv.view.state ∨ st = .armed) := by
  simp only [applyPendingArm]
  split
  · simp only [releaseTrg]
    split
    · exact ⟨s.line.drive.trg, .armed, false, rfl, .inr rfl⟩
    · exact ⟨false, .armed, false, rfl, .inr rfl⟩
  · exact ⟨s.line.drive.trg, s.rdv.view.state, s.rdv.view.pendingArm, rfl, .inl rfl⟩

/-- With the slot in use the end of a CANCEL that closes no view moves the TRG drive and the view alone; the view is open after it, with the rendezvous it was of (R73). -/
theorem liftFreeze_occupied {f : SlotFrame} {s : State} (hs : s.tm.slot = some f)
    (hv : s.rdv.view.state = .waiting ∨ s.rdv.view.state = .armed ∨
      s.rdv.view.state = .cancelling) :
    ∃ trg v, liftFreeze s = { s with line.drive.trg := trg, rdv.view := v } ∧
      viewOpen v = true ∧ v.group = s.rdv.view.group ∧
      v.tag = s.rdv.view.tag ∧ v.role = s.rdv.view.role ∧
      v.expiredHere = s.rdv.view.expiredHere ∧ v.openedAt = s.rdv.view.openedAt := by
  have returned : ∃ st c, viewReturned s.line.drive.trg s.rdv.view =
        { s.rdv.view with state := st, cancelSentHere := c } ∧
      (st = .waiting ∨ st = .armed) := by
    rcases hv with hv | hv | hv
    · exact ⟨.waiting, s.rdv.view.cancelSentHere,
        by rw [viewReturned, if_neg (by simp [hv]), ← hv], .inl rfl⟩
    · exact ⟨.armed, s.rdv.view.cancelSentHere,
        by rw [viewReturned, if_neg (by simp [hv]), ← hv], .inr rfl⟩
    · exact ⟨if s.line.drive.trg then .waiting else .armed, false,
        by rw [viewReturned, if_pos hv], by split <;> simp⟩
  obtain ⟨st, c, hret, hst⟩ := returned
  have opened : viewOpen { s.rdv.view with state := st, cancelSentHere := c } = true := by
    rcases hst with rfl | rfl <;> rfl
  simp only [liftFreeze, hret, opened, if_true]
  obtain ⟨trg, st', pa, harm, hst'⟩ := applyPendingArm_moves
    (setView { s.rdv.view with state := st, cancelSentHere := c, freeze := false } s)
  rw [harm]
  obtain ⟨e, hplace⟩ := placeDeferredCancel_occupied (f := f) (s := { setView { s.rdv.view with
    state := st, cancelSentHere := c, freeze := false } s with
      line.drive.trg := trg, rdv.view.state := st', rdv.view.pendingArm := pa }) hs
  refine ⟨trg, _, hplace, ?_, rfl, rfl, rfl, rfl, rfl⟩
  have hopen : st' = .waiting ∨ st' = .armed := by
    rcases hst' with h | h
    · exact h ▸ hst
    · exact .inr h
  rcases hopen with rfl | rfl <;> rfl

/-- A CANCEL whose attempt ends NO_LISTENER closes the view of its tag CANCELLED, with cancel-sent-here set (R74). -/
theorem closeNoListener_eq {group tag : Byte} {role : RdvRole} {s : State}
    (hv : viewOpen s.rdv.view = true ∨ s.rdv.view.state = .cancelling)
    (hg : s.rdv.view.group = some group) (ht : s.rdv.view.tag = some tag)
    (hr : s.rdv.view.role = some role) (hres : s.ctl.resetInProgress = false)
    (hn : s.rdv.outcomes.length < 4) :
    closeNoListener tag s = { s with
      line.drive.trg := false
      rdv.view := View.absent
      tm.slot := purgedSlot tag s.tm.slot
      rdv.outcomes := s.rdv.outcomes ++
        [{ tag := tag, group := group, role := role, outcome := .cancelled, reason := none,
           expiredHere := s.rdv.view.expiredHere, cancelSentHere := true,
           openedAt := s.rdv.view.openedAt, closedAt := s.ctl.clock }] } := by
  have closes : ((viewOpen s.rdv.view || s.rdv.view.state == .cancelling) &&
      s.rdv.view.tag == some tag) = true := by
    rcases hv with hv | hv <;> simp [hv, ht]
  simp only [closeNoListener, closes, if_true]
  rw [closeView_eq (by exact hg) (by exact ht) (by exact hr) (by exact hres) (by exact hn)]
  rfl

end Sys2Proof.Machine

open Sys2Proof Sys2Proof.Machine

/-- Settles O34: the frame is abandoned, its attempt ends by its kind, and the talker rests. -/
theorem noListenerEndsTheAttempt : Obligations.NoListenerEndsTheAttempt := by
  intro s hb hr hw hn hi
  refine ⟨fun ho hc => ?_, fun f group tag deadline hs hf hrem hk ho hlen => ?_,
    fun f group tag role hs hf hrem hk ho hv hg ht hrole hres hlen => ?_⟩
  · have ends := noListener_eq hr hw hi (rendezvousAbandonment_other ho hc (unheard s)) hn
    refine ⟨fun i hfl => ?_, fun f hs hf => ?_⟩
    · refine nextIs_of_busChange rfl hb ?_
      rw [ends, endAttempt_descriptor (s := endFrameState (unheard s)) hfl,
        handed_forgotten (by exact hn)]
      simp only [endDescriptorAttempt]
      rw [finishDescriptor_eq (by simp [unheard, hr]) (by exact hi), leaveTalker_eq]
      rfl
    · rw [endAttempt_slot (by exact hs) hf, handed_forgotten (by exact hn)] at ends
      refine ⟨fun hrem => ?_, fun hrem hk hres => ?_, fun group tag deadline hrem hk hlen => ?_⟩ <;>
        refine nextIs_of_busChange rfl hb ?_
      · rw [ends, endSlotAttempt_removed hrem, leaveTalker_eq]
        rfl
      · rw [ends, endSlotAttempt_hello hrem hk]
        simp only [endHello]
        rw [stationJoined_eq (by exact hres), leaveTalker_eq]
        rfl
      · rw [ends, endSlotAttempt_open hrem hk]
        simp only [endOpen]
        rw [notOpened_eq (by exact hlen), leaveTalker_eq]
        rfl
  · have abandoned : rendezvousAbandonment s.fe.frame (unheard s) = openAbandoned (unheard s) := by
      simp [rendezvousAbandonment, ho]
    rw [openAbandoned_eq] at abandoned
    refine ⟨fun hv => ?_, fun hv hres => ?_⟩ <;> refine nextIs_of_busChange rfl hb ?_
    · rw [if_neg (by exact hv)] at abandoned
      rw [noListener_eq hr hw hi abandoned hn, endAttempt_slot (by exact hs) hf,
        handed_forgotten (by exact hn), endSlotAttempt_open hrem hk]
      simp only [endOpen]
      rw [notOpened_eq (by exact hlen), leaveTalker_eq]
      rfl
    · rw [if_pos (by exact hv)] at abandoned
      rw [noListener_eq hr hw hi abandoned hn, endAttempt_slot (by exact hs) hf,
        handed_forgotten (by exact hn), endSlotAttempt_open hrem hk]
      simp only [endOpen]
      rw [notOpened_eq (by exact hlen), leaveTalker_eq]
      simp only [unheard, endFrameState, setSlot, hres, Bool.and_false]
  · refine nextIs_of_busChange rfl hb ?_
    obtain ⟨trg, v, abandoned, hopen, hg', ht', hrole', hexpired, hopened⟩ :
        ∃ trg v, rendezvousAbandonment s.fe.frame (unheard s) =
          { unheard s with line.drive.trg := trg, rdv.view := v } ∧
        (viewOpen v = true ∨ v.state = .cancelling) ∧ v.group = s.rdv.view.group ∧
        v.tag = s.rdv.view.tag ∧ v.role = s.rdv.view.role ∧
        v.expiredHere = s.rdv.view.expiredHere ∧ v.openedAt = s.rdv.view.openedAt := by
      by_cases hc : s.fe.frame.type = some typeCancel
      · obtain ⟨trg, v, hlift, hopen, same⟩ := liftFreeze_occupied (s := unheard s) hs hv
        exact ⟨trg, v, by rw [rendezvousAbandonment, if_neg ho, if_pos hc, hlift], .inl hopen, same⟩
      · refine ⟨s.line.drive.trg, s.rdv.view, rendezvousAbandonment_other ho hc _, ?_, rfl, rfl, rfl,
          rfl, rfl⟩
        rcases hv with hv | hv | hv <;> simp [viewOpen, hv]
    rw [noListener_eq hr hw hi abandoned hn, endAttempt_slot (by exact hs) hf,
      handed_forgotten (by exact hn), endSlotAttempt_cancel hrem hk]
    simp only [endCancel]
    rw [closeNoListener_eq (by exact hopen) (by exact hg'.trans hg) (by exact ht'.trans ht)
      (by exact hrole'.trans hrole) (by exact hres) (by exact hlen), leaveTalker_eq]
    simp only [endFrameState, setSlot, unheard, hexpired, hopened]
    rfl
end

section
/-! The completion of a frame at its talker, and the end of the OWN hold (R11, R58, R72, R111). -/

namespace Sys2Proof.Machine

open Sys2Proof

/-- COMPLETION_WINDOW_END in CLOSING, with no outcome handed before (R11, R111). -/
theorem completionWindowEnd_closing {s : State} (hr : s.hs.role = .talker .closing)
    (hw : s.hs.window ≠ none) (hc : s.hs.complete = false) (hn : s.tm.handed = none) :
    completionWindowEnd s =
      { releaseByte (rendezvousCompletion s.fe.frame (endAttempt .sent false s)) with
        fe.frame := FrameState.absent
        fe.comparator := none
        hs.complete := true } := by
  have hw' : s.hs.window.isNone = false := by
    simpa [Option.isNone_eq_false_iff, Option.isSome_iff_ne_none] using hw
  simp [completionWindowEnd, hr, hw', hc, completeAtTalker, hn]

/-- The completion of a frame that is neither an OPEN nor a CANCEL tells the rendezvous unit nothing. -/
theorem rendezvousCompletion_other {f : FrameState} (ho : f.type ≠ some typeOpen)
    (hc : f.type ≠ some typeCancel) (s : State) : rendezvousCompletion f s = s := by
  simp [rendezvousCompletion, ho, hc]

/-- A GOOD frame with a payload value ends GOOD (R45, R46). -/
theorem endVerdict_good {n : Nat} {f : FrameState} (hv : f.verdict = some .good)
    (hp : f.payloadCount = some (n + 1)) : endVerdict f = some .good := by
  simp [endVerdict, hv, hp]

/-- A well-formed OPEN completes with the slot EMPTY: the PROVISIONAL view is WAITING, with its deadline timer (R58, R75). -/
theorem openCompletion_provisional {s : State} (hv : s.rdv.view.state = .provisional)
    (hs : s.tm.slot = none) :
    openCompletion s =
      { s with rdv.noted := none, rdv.view := viewOpened s.rdv.view s.ctl.clock } := by
  simp [openCompletion, hv, setView, discardLostOpen, hs]

/-- A well-formed CANCEL completes at a CANCELLING view: it closes CANCELLED (R72). -/
theorem cancelCompletion_cancelling {s : State} (hv : s.rdv.view.state = .cancelling)
    (address tag : Byte) :
    cancelCompletion address tag s = closeView .cancelled s.ctl.clock s := by
  simp [cancelCompletion, hv]

end Sys2Proof.Machine

open Sys2Proof Sys2Proof.Machine

/-- Settles O35: the attempt ends SENT by the kind of frame, then the rendezvous unit gets the completion. -/
theorem talkerCompletesAndReleasesOwn : Obligations.TalkerCompletesAndReleasesOwn := by
  intro s hb hr
  refine ⟨fun hw hc hn hi => ?_, fun hc => ?_⟩
  · have ends := completionWindowEnd_closing hr hw hc hn
    refine ⟨fun i hfl htype => ?_, fun f hs hf hrem => ?_⟩
    · refine nextIs_of_busChange rfl hb ?_
      rw [ends, endAttempt_descriptor hfl, handed_forgotten hn,
        rendezvousCompletion_other (by rw [htype]; decide) (by rw [htype]; decide)]
      simp only [endDescriptorAttempt]
      rw [finishDescriptor_eq (by simp [hr]) hi]
      rfl
    · rw [endAttempt_slot hs hf, handed_forgotten hn] at ends
      refine ⟨fun hk htype hres => ?_, fun group tag deadline n hk htype hver hcount hv => ?_,
        fun group tag role n hk htype hver hcount hv hg ht hrole hres hlen => ?_⟩ <;>
        refine nextIs_of_busChange rfl hb ?_
      · rw [ends, endSlotAttempt_hello hrem hk,
          rendezvousCompletion_other (by rw [htype]; decide) (by rw [htype]; decide)]
        simp only [endHello]
        rw [stationJoined_eq (by exact hres)]
        rfl
      · rw [ends, endSlotAttempt_open hrem hk, rendezvousCompletion, if_pos htype,
          if_pos (endVerdict_good hver hcount)]
        simp only [endOpen]
        rw [openCompletion_provisional (by exact hv) rfl]
        rfl
      · rw [ends, endSlotAttempt_cancel hrem hk, rendezvousCompletion,
          if_neg (by rw [htype]; decide), if_pos htype, if_pos (endVerdict_good hver hcount)]
        simp only [endCancel]
        rw [cancelCompletion_cancelling (by exact hv), closeView_eq (by exact hg) (by exact ht)
          (by exact hrole) (by exact hres) (by exact hlen)]
        rfl
  · refine nextIs_of_busChange rfl hb ?_
    rw [ownHoldEnd, if_pos ⟨hr, hc⟩, leaveTalker_eq]
end

section
/-! The break edge by role (R16, R17, R29, R50, R61, R66, R73, R110–R118). -/

namespace Sys2Proof.Machine

open Sys2Proof

/-! ### The edge as every station feels it (R16, R17, R18, R66) -/

/-- A fire that waits is held by the edge (R66). -/
def fireHeld : FirePending → FirePending
  | .pending sensedAt _ => .held sensedAt
  | .held sensedAt => .held sensedAt
  | .clear => .clear

/-- What every station does at the edge: the measurement begins, held frame breaks lose their reason, a fire that waits is held. -/
def edgeFelt (s : State) : State :=
  { s with
    line.sense.brk := true
    line.measure := .timing 0
    line.heldFrame := []
    rdv.view.fire := fireHeld s.rdv.view.fire }

/-- BREAK_EDGE is felt, then the arbiter and the role act. -/
theorem breakEdge_eq {s : State} (h : s.line.sense.brk = false) :
    breakEdge s = breakRole (breakArbiter (edgeFelt s)) := by
  have held : holdFire
      { s with line.sense.brk := true, line.measure := .timing 0, line.heldFrame := [] } =
        edgeFelt s := by
    have same (h : fireHeld s.rdv.view.fire = s.rdv.view.fire) : edgeFelt s =
        { s with line.sense.brk := true, line.measure := .timing 0, line.heldFrame := [] } := by
      rw [edgeFelt, h]
    cases hf : s.rdv.view.fire with
    | pending sensedAt n => simp [holdFire, hf, setView, edgeFelt, fireHeld]
    | held sensedAt => rw [same (by simp [hf, fireHeld])]; simp [holdFire, hf]
    | clear => rw [same (by simp [hf, fireHeld])]; simp [holdFire, hf]
  simp [breakEdge, h, held]

/-! ### The arbiter (R29) -/

/-- An arbiter that neither bids nor waits in STANDBY goes on. -/
theorem breakArbiter_stays {s : State}
    (h : s.arb.phase = .off ∨ s.arb.phase = .owner ∨ s.arb.phase = .outside) :
    breakArbiter s = s := by
  rcases h with h | h | h <;> simp [breakArbiter, h]

/-- An arbiter in STANDBY enters OUTSIDE. -/
theorem breakArbiter_standby {s : State} (h : s.arb.phase = .standby) :
    breakArbiter s = enterOutside s := by
  simp [breakArbiter, h]

/-- A bidder gives up its bid. -/
theorem breakArbiter_bidding {s : State} (h : s.arb.phase = .bidding ∨ s.arb.phase = .won) :
    breakArbiter s = giveUpBid s := by
  rcases h with h | h <;> simp [breakArbiter, h]

/-- The descriptor of a bid given up goes back to the head of its class's queue (R28, R29). -/
theorem giveUpBid_descriptor {i : Fin 16} {s : State}
    (h : selectedFrame s = some (.descriptor i)) :
    giveUpBid s = enterOutside { s with
      line.drive.req := false
      line.drive.data := 0
      tm.table := s.tm.table.set i { s.tm.table[i] with state := .queued }
      tm.urgent := if s.tm.table[i].cls = .urgent then i :: s.tm.urgent else s.tm.urgent
      tm.normal := if s.tm.table[i].cls = .normal then i :: s.tm.normal else s.tm.normal } := by
  have hsel : selectedFrame { s with line.drive.req := false, line.drive.data := 0 } =
      some (.descriptor i) := h
  simp only [giveUpBid, returnSelected, hsel]
  rw [queueAtHead_eq]

/-- The slot frame of a bid given up goes back to QUEUED, or out of the slot if its removal was requested (R28, R29). -/
theorem giveUpBid_slot {f : SlotFrame} {s : State} (hs : s.tm.slot = some f)
    (hf : f.state = .selected) :
    giveUpBid s = enterOutside { s with
      line.drive.req := false
      line.drive.data := 0
      tm.slot := if f.removal then none else some { f with state := .queued } } := by
  simp [giveUpBid, returnSelected, selectedFrame, hs, hf, setSlot]

/-! ### The abandonment beside what an edge writes (R54) -/

/-- An abandonment reads and writes nothing of the arbiter's timers and phase. -/
theorem frameAbandoned_enterOutside (s : State) :
    frameAbandoned (enterOutside s) = enterOutside (frameAbandoned s) := by
  obtain ⟨_, _, _, _, _, _, _, _, _, shape⟩ := frameAbandoned_shape s
  rw [shape s rfl rfl rfl rfl rfl rfl rfl rfl,
    shape (enterOutside s) rfl rfl rfl rfl rfl rfl rfl rfl]
  rfl

/-- An abandonment writes the TRG drive, the slot, the receive manager, the pool, the view and the noted open, and nothing else. -/
theorem frameAbandoned_writes (s : State) :
    ∃ trg slot rm pool view noted,
      rm.state = .idle ∧
      (∀ f, s.tm.slot = some f → slot = some f) ∧
      (∀ f, slot = some f → s.tm.slot = none → f.state = .queued) ∧
      frameAbandoned s = { s with
        line.drive.trg := trg, tm.slot := slot, rm := rm, mem.pool := pool
        rdv.view := view, rdv.noted := noted } := by
  obtain ⟨trg, slot, rm, pool, view, noted, hi, hs, hq, shape⟩ := frameAbandoned_shape s
  exact ⟨trg, slot, rm, pool, view, noted, hi, hs, hq, shape s rfl rfl rfl rfl rfl rfl rfl rfl⟩

/-! ### Participants and bystanders (R17) -/

/-- A participant or bystander after the edge: WAIT and PEND released, role NONE, silence timer and window stopped, no frame in progress. -/
def listenerStopped (s : State) : State :=
  { s with
    line.drive.wait := false
    line.drive.pend := false
    hs.role := .none
    hs.rejoin := true
    hs.silence := none
    hs.window := none
    fe.frame := FrameState.absent }

/-- The edge at a participant or bystander without a frame in progress. -/
theorem breakParticipant_idle {s : State} (hh : s.line.heldFrame = [])
    (hp : s.fe.frame.position = .none) : breakParticipant s = listenerStopped s := by
  simp [breakParticipant, abandonFrame, hp, endFrameState, stopSilence, hh, listenerStopped]

/-- The edge at a participant or bystander with a frame in progress: it is abandoned. -/
theorem breakParticipant_abandons {s : State} (hh : s.line.heldFrame = [])
    (hp : s.fe.frame.position ≠ .none) (ha : s.arb.phase ≠ .standby) :
    breakParticipant s = listenerStopped (frameAbandoned s) := by
  have hh' : (frameAbandoned s).line.heldFrame = [] := by
    obtain ⟨_, _, _, _, _, _, -, -, -, h⟩ := frameAbandoned_writes s
    rw [h, ← hh]
  simp [breakParticipant, abandonFrame, hp, handAbandonment_eq ha, endFrameState, stopSilence,
    hh', listenerStopped]

/-- The role that acts at a participant and a bystander. -/
theorem breakRole_listener {s : State}
    (hr : s.hs.role = .bystander ∨ ∃ p, s.hs.role = .participant p) :
    breakRole s = breakParticipant s := by
  rcases hr with hr | ⟨p, hr⟩ <;> simp [breakRole, hr]

/-! ### The talker (R17, R50, R110, R111) -/

/-- The guard at a talker's break edge: it starts where a LAST byte was on offer (R16, log 23). -/
def guardAtBreak (s : State) : Option Nat :=
  if s.hs.role = .talker .offered ∧ s.fe.comparator.any (·.last) then some 0 else s.line.guard

/-- A talker after the edge: every line of its frame released, role NONE, its timers stopped. -/
def talkerStopped (g : Option Nat) (s : State) : State :=
  { s with
    line.guard := g
    line.drive.offer := false
    line.drive.own := false
    line.drive.data := 0
    line.drive.kind := false
    line.drive.last := false
    line.sense.offer := false
    hs.role := .none
    hs.stall := none
    hs.setUp := none
    hs.window := none
    hs.complete := false
    hs.rejoin := true
    fe.comparator := none }

/-- The byte on offer carries LAST exactly in OFFERED with a LAST byte in the comparator. -/
theorem lastOnOffer_iff {s : State} :
    lastOnOffer s = true ↔ s.hs.role = .talker .offered ∧ s.fe.comparator.any (·.last) := by
  simp only [lastOnOffer]
  split
  · rename_i hr hc
    simp [hr, hc]
  · rename_i h
    cases hc : s.fe.comparator with
    | none => simp
    | some b =>
      have hr : s.hs.role ≠ .talker .offered := fun hr => h b hr hc
      simp [hr]

/-- An abandonment reads and writes nothing of what a talker's stop writes. -/
theorem frameAbandoned_talkerStopped (g : Option Nat) (s : State) :
    frameAbandoned (talkerStopped g s) = talkerStopped g (frameAbandoned s) := by
  obtain ⟨_, _, _, _, _, _, _, _, _, shape⟩ := frameAbandoned_shape s
  rw [shape s rfl rfl rfl rfl rfl rfl rfl rfl,
    shape (talkerStopped g s) rfl rfl rfl rfl rfl rfl rfl rfl]
  rfl

/-- The edge at a talker: its lines, then its frame and its attempt unless the frame was complete. -/
theorem breakTalker_eq (s : State) :
    breakTalker s =
      enterOutside
        (if s.hs.complete then talkerStopped (guardAtBreak s) s
         else
           let t := endFrameState (handAbandonment (talkerStopped (guardAtBreak s) s))
           endAttempt (outcomeAtBreak t) (sourceOnOffer s) t) := by
  have guard : (if lastOnOffer s then some 0 else s.line.guard) = guardAtBreak s := by
    simp only [guardAtBreak, lastOnOffer_iff]
  rw [← guard]
  rfl

/-- The edge at a talker whose frame is complete. -/
theorem breakTalker_complete {s : State} (hc : s.hs.complete = true) :
    breakTalker s = enterOutside (talkerStopped (guardAtBreak s) s) := by
  rw [breakTalker_eq, if_pos hc]

/-- The state in which the attempt of an abandoned frame ends at a break edge. -/
def attemptBroken (g : Option Nat) (s : State) : State :=
  { talkerStopped g s with fe.frame := FrameState.absent }

/-- The edge at a talker whose frame is not complete: it is abandoned and its attempt ends with the outcome handed, else BROKEN. -/
theorem breakTalker_abandons {s : State} (hc : s.hs.complete = false)
    (ha : s.arb.phase ≠ .standby) :
    breakTalker s = enterOutside (endAttempt (s.tm.handed.getD .broken) (sourceOnOffer s)
      (attemptBroken (guardAtBreak s) (frameAbandoned s))) := by
  have handed : (frameAbandoned s).tm.handed = s.tm.handed := by
    obtain ⟨_, _, _, _, _, _, -, -, -, h⟩ := frameAbandoned_writes s
    rw [h]
  rw [breakTalker_eq, hc, handAbandonment_eq (by exact ha), frameAbandoned_talkerStopped,
    ← handed]
  rfl

/-! ### The ends of an attempt that may be tried again (R113–R118) -/

/-- A STALLED or BROKEN attempt. -/
def Retryable (o : TxOutcome) : Prop := o = .stalled ∨ o = .broken

/-- At most as many attempts as the retry limit: the frame is tried again. -/
theorem mayRetry_of_le {n : Nat} {s : State} (h : n ≤ s.ctl.configuration.retryLimit) :
    mayRetry n s = true := by
  simp [mayRetry, h]

/-- More attempts than the retry limit: the frame is not tried again. -/
theorem mayRetry_of_lt {n : Nat} {s : State} (h : s.ctl.configuration.retryLimit < n) :
    mayRetry n s = false := by
  simp [mayRetry, h]

/-- A descriptor with attempts left is QUEUED again. -/
theorem endDescriptorAttempt_retries {i : Fin 16} {o : TxOutcome} {s : State} (ho : Retryable o)
    (h : s.tm.table[i].attempts ≤ s.ctl.configuration.retryLimit) :
    endDescriptorAttempt i o s = queueAtHead i s := by
  rcases ho with rfl | rfl <;> simp only [endDescriptorAttempt, mayRetry_of_le h, if_true]

/-- A descriptor without attempts left, or after a CLASH, is finished. -/
theorem endDescriptorAttempt_finishes {i : Fin 16} {o : TxOutcome} {s : State}
    (h : o = .clash ∨ Retryable o ∧ s.ctl.configuration.retryLimit < s.tm.table[i].attempts) :
    endDescriptorAttempt i o s = finishDescriptor i o s := by
  rcases h with rfl | ⟨rfl | rfl, h⟩
  · rfl
  all_goals simp only [endDescriptorAttempt, mayRetry_of_lt h, Bool.false_eq_true, if_false]

/-- After a CLASH a HELLO or a CANCEL leaves the slot and nothing follows (R116, R118). -/
theorem endSlotAttempt_clash {f : SlotFrame}
    (hk : ∀ group tag deadline, f.kind ≠ .openFrame group tag deadline) (atSource : Bool)
    (s : State) : endSlotAttempt f .clash atSource s = setSlot none s := by
  simp only [endSlotAttempt]
  split
  · rfl
  · split
    · rfl
    · rename_i h
      exact absurd h (hk _ _ _)
    · rfl

/-- A HELLO broken with its SOURCE on offer found a duplicate (R116, R152). -/
theorem endHello_duplicate (f : SlotFrame) (s : State) :
    endHello f .broken true s = awaitFault .duplicate (setSlot none s) := by
  simp [endHello]

/-- A HELLO with attempts left is QUEUED again (R115, R116). -/
theorem endHello_retries {f : SlotFrame} {o : TxOutcome} {atSource : Bool} {s : State}
    (ho : o = .stalled ∨ o = .broken ∧ atSource = false)
    (h : f.attempts ≤ s.ctl.configuration.retryLimit) :
    endHello f o atSource s = setSlot (some { f with state := .queued }) s := by
  rcases ho with rfl | ⟨rfl, rfl⟩ <;> simp [endHello, mayRetry_of_le h]

/-- A HELLO without attempts left cannot join (R116, R152). -/
theorem endHello_exhausted {f : SlotFrame} {o : TxOutcome} {atSource : Bool} {s : State}
    (ho : o = .stalled ∨ o = .broken ∧ atSource = false)
    (h : s.ctl.configuration.retryLimit < f.attempts) :
    endHello f o atSource s = awaitFault .noJoin (setSlot none s) := by
  rcases ho with rfl | ⟨rfl, rfl⟩ <;> simp [endHello, mayRetry_of_lt h]

/-- An OPEN with attempts left is QUEUED again (R115, R117). -/
theorem endOpen_retries {f : SlotFrame} {o : TxOutcome} {s : State} (ho : Retryable o)
    (h : f.attempts ≤ s.ctl.configuration.retryLimit) (group tag : Byte) :
    endOpen f group tag o s = setSlot (some { f with state := .queued }) s := by
  rcases ho with rfl | rfl <;> simp [endOpen, mayRetry_of_le h]

/-- An OPEN without attempts left, or after a CLASH, is NOT_OPENED (R62, R117). -/
theorem endOpen_exhausted {f : SlotFrame} {o : TxOutcome} {s : State}
    (h : o = .clash ∨ Retryable o ∧ s.ctl.configuration.retryLimit < f.attempts)
    (group tag : Byte) :
    endOpen f group tag o s = notOpened group tag .attempts (setSlot none s) := by
  rcases h with rfl | ⟨rfl | rfl, h⟩
  · rfl
  all_goals simp [endOpen, mayRetry_of_lt h]

/-- A CANCEL with attempts left is QUEUED again (R115, R118). -/
theorem endCancel_retries {f : SlotFrame} {o : TxOutcome} {s : State} (ho : Retryable o)
    (h : f.attempts ≤ s.ctl.configuration.retryLimit) (tag : Byte) :
    endCancel f tag o s = setSlot (some { f with state := .queued }) s := by
  rcases ho with rfl | rfl <;> simp [endCancel, mayRetry_of_le h]

/-- A CANCEL without attempts left asks for a clear break (R78, R118). -/
theorem endCancel_exhausted {f : SlotFrame} {o : TxOutcome} {s : State} (ho : Retryable o)
    (h : s.ctl.configuration.retryLimit < f.attempts) (tag : Byte) :
    endCancel f tag o s = requestClearBreak (setSlot none s) := by
  rcases ho with rfl | rfl <;> simp [endCancel, mayRetry_of_lt h]

/-- Outside a soft reset an entry into FAULTED is awaited (R52, R152). -/
theorem awaitFault_eq {s : State} (h : s.ctl.resetInProgress = false) (reason : StationReason) :
    awaitFault reason s = { s with ctl.pendingFault := some reason } := by
  simp [awaitFault, h]

/-- A descriptor in flight stays the frame in flight when a QUEUED frame comes into an EMPTY slot. -/
theorem inFlightFrame_placed {i : Fin 16} {s t : State} (ht : t.tm.table = s.tm.table)
    (hk : ∀ f, s.tm.slot = some f → t.tm.slot = some f)
    (hq : ∀ f, t.tm.slot = some f → s.tm.slot = none → f.state = .queued)
    (h : inFlightFrame s = some (.descriptor i)) :
    inFlightFrame t = some (.descriptor i) := by
  have found : findDescriptor t (·.state == .inFlight) = findDescriptor s (·.state == .inFlight) := by
    simp only [findDescriptor, ht]
  cases hs : s.tm.slot with
  | some f => simpa only [inFlightFrame, hs, hk f hs, found] using h
  | none =>
    cases hts : t.tm.slot with
    | none => simpa only [inFlightFrame, hs, hts, found] using h
    | some g =>
      have hg : g.state ≠ .inFlight := by rw [hq g hts hs]; decide
      simpa only [inFlightFrame, hs, hts, found, if_neg hg] using h

/-! ### The edge by role (R17) -/

/-- In NONE the edge is felt and no more, while the arbiter has nothing to give up. -/
theorem breakEdge_none {s : State} (h : s.line.sense.brk = false) (hr : s.hs.role = .none)
    (ha : s.arb.phase = .off ∨ s.arb.phase = .outside) : breakEdge s = edgeFelt s := by
  have stays : breakArbiter (edgeFelt s) = edgeFelt s :=
    breakArbiter_stays (ha.imp_right .inr)
  have role : (edgeFelt s).hs.role = .none := hr
  rw [breakEdge_eq h, stays]
  simp only [breakRole, role]

/-- At a participant or bystander the arbiter acts, then the role. -/
theorem breakEdge_listener {s : State} (h : s.line.sense.brk = false)
    (hr : s.hs.role = .bystander ∨ ∃ p, s.hs.role = .participant p) :
    breakEdge s = breakParticipant (breakArbiter (edgeFelt s)) := by
  rw [breakEdge_eq h, breakRole_listener (by simpa [edgeFelt] using hr)]

/-- At a talker the arbiter is in OWNER and the role acts. -/
theorem breakEdge_talker {p : TalkerPhase} {s : State} (h : s.line.sense.brk = false)
    (hr : s.hs.role = .talker p) (ha : s.arb.phase = .owner) :
    breakEdge s = breakTalker (edgeFelt s) := by
  have stays : breakArbiter (edgeFelt s) = edgeFelt s := breakArbiter_stays (.inr (.inl ha))
  have role : (edgeFelt s).hs.role = .talker p := hr
  rw [breakEdge_eq h, stays]
  simp only [breakRole, role]

/-- At a talker whose frame is not complete the attempt ends, and the arbiter is in OUTSIDE. -/
theorem breakEdge_attempt {p : TalkerPhase} {s : State} (h : s.line.sense.brk = false)
    (hr : s.hs.role = .talker p) (ha : s.arb.phase = .owner) (hc : s.hs.complete = false) :
    breakEdge s = enterOutside (endAttempt (s.tm.handed.getD .broken) (sourceOnOffer s)
      (attemptBroken (guardAtBreak s) (frameAbandoned (edgeFelt s)))) := by
  rw [breakEdge_talker h hr ha, breakTalker_abandons (by exact hc)]
  · rfl
  · rw [show (edgeFelt s).arb.phase = .owner from ha]
    decide

end Sys2Proof.Machine

open Sys2Proof Sys2Proof.Machine

/-- Settles O39: the edge is felt, the arbiter acts, then the role; at a talker whose frame is not complete, what the abandonment writes is named once and the attempt ends by the kind of its frame (a descriptor, then a HELLO, an OPEN and a CANCEL in the slot). -/
theorem breakEdgeStopsEveryRole : Obligations.BreakEdgeStopsEveryRole := by
  intro s hb hbrk felt outside stopped guarded silenced abandoned broken
  refine ⟨fun hr ha => nextIs_breakEdge hb (breakEdge_none hbrk hr ha), fun p hr => ?_,
    fun p hr ha => ⟨fun hc => ?_, fun hc => ?_⟩⟩
  · have edge := breakEdge_listener hbrk (hr.symm.imp_right (⟨p, ·⟩))
    refine ⟨fun hp => ⟨fun ha => ?_, fun ha => ?_⟩,
      fun hp => ⟨fun ha => ?_, fun ha => ?_, fun ha => ⟨fun i hsel => ?_, fun f hs hf => ?_⟩⟩⟩ <;>
      refine nextIs_breakEdge hb (edge.trans ?_)
    · rw [breakArbiter_stays (s := edgeFelt s) (.inr (.inr ha)),
        breakParticipant_abandons rfl (by exact hp) (by simp [edgeFelt, ha])]
      rfl
    · rw [breakArbiter_standby (s := edgeFelt s) ha,
        breakParticipant_abandons rfl (by exact hp) (by simp), frameAbandoned_enterOutside]
      rfl
    · rw [breakArbiter_stays (s := edgeFelt s) (.inr (.inr ha)),
        breakParticipant_idle rfl (by exact hp)]
      rfl
    · rw [breakArbiter_standby (s := edgeFelt s) ha, breakParticipant_idle rfl (by exact hp)]
      rfl
    · rw [breakArbiter_bidding (s := edgeFelt s) ha, giveUpBid_descriptor (s := edgeFelt s) hsel,
        breakParticipant_idle rfl (by exact hp)]
      rfl
    · rw [breakArbiter_bidding (s := edgeFelt s) ha, giveUpBid_slot (s := edgeFelt s) hs hf,
        breakParticipant_idle rfl (by exact hp)]
      rfl
  · refine nextIs_breakEdge hb ?_
    rw [breakEdge_talker hbrk hr ha, breakTalker_complete (by exact hc)]
    rfl
  · have edge := breakEdge_attempt hbrk hr ha hc
    obtain ⟨trg, slot, rm, pool, view, noted, hidle, hkept, hqueued, writes⟩ :=
      frameAbandoned_writes (edgeFelt s)
    have habs : abandoned = _ := writes
    clear_value abandoned
    subst habs
    rw [writes] at edge
    have retryable (hn : s.tm.handed = none ∨ s.tm.handed = some .stalled) :
        Retryable (s.tm.handed.getD .broken) := by
      rcases hn with hn | hn <;> simp [hn, Retryable]
    refine ⟨fun i hfl => ?_, fun f hs hf => ?_⟩
    · rw [endAttempt_descriptor
        (by exact inFlightFrame_placed (s := s) rfl hkept hqueued hfl)] at edge
      refine ⟨fun hn hatt => ?_, fun o hn ho => ?_⟩ <;>
        refine nextIs_breakEdge hb (edge.trans ?_)
      · rw [endDescriptorAttempt_retries (retryable hn) (by exact hatt), queueAtHead_eq]
        rfl
      · have handed : s.tm.handed.getD .broken = o := by
          rcases hn with ⟨rfl, hn⟩ | hn <;> simp [hn]
        rw [handed, endDescriptorAttempt_finishes (by exact ho),
          finishDescriptor_eq (by simp [attemptBroken, talkerStopped]) (by exact hidle)]
        rfl
    · rw [endAttempt_slot (hkept f hs) hf] at edge
      refine ⟨fun hout => ?_, fun hrem hk hres => ⟨fun hp hsent hn => ?_, fun hn => ?_⟩,
        fun group tag deadline hrem hk => ⟨fun hn hatt => ?_, fun hn hlen => ?_⟩,
        fun group tag hrem hk hn => ⟨fun hatt => ?_, fun hatt hdelay => ⟨fun hg hpulse => ?_,
          fun hg => ?_⟩⟩⟩
      · refine nextIs_breakEdge hb (edge.trans ?_)
        rcases hout with hrem | ⟨hn, hk⟩
        · rw [endSlotAttempt_removed hrem]
          rfl
        · rw [hn, Option.getD_some, endSlotAttempt_clash hk]
          rfl
      · have atSource : sourceOnOffer s = true := by simp [sourceOnOffer, hr, hp, hsent]
        refine nextIs_breakEdge hb (edge.trans ?_)
        rw [endSlotAttempt_hello hrem hk, hn, atSource, Option.getD_none, endHello_duplicate,
          awaitFault_eq (by exact hres)]
        rfl
      · rw [endSlotAttempt_hello hrem hk] at edge
        have again : s.tm.handed.getD .broken = .stalled ∨
            s.tm.handed.getD .broken = .broken ∧ sourceOnOffer s = false := by
          rcases hn with ⟨hn, hp | hsent⟩ | hn
          · exact .inr ⟨by simp [hn], by simp [sourceOnOffer, hr, hp]⟩
          · exact .inr ⟨by simp [hn], by simp [sourceOnOffer, hsent]⟩
          · exact .inl (by simp [hn])
        refine ⟨fun hatt => ?_, fun hatt => ?_⟩ <;> refine nextIs_breakEdge hb (edge.trans ?_)
        · rw [endHello_retries again (by exact hatt)]
          rfl
        · rw [endHello_exhausted again (by exact hatt), awaitFault_eq (by exact hres)]
          rfl
      · refine nextIs_breakEdge hb (edge.trans ?_)
        rw [endSlotAttempt_open hrem hk, endOpen_retries (retryable hn) (by exact hatt)]
        rfl
      · have ends : s.tm.handed.getD .broken = .clash ∨
            Retryable (s.tm.handed.getD .broken) ∧
              s.ctl.configuration.retryLimit < f.attempts := by
          rcases hn with hn | ⟨hn, hatt⟩
          · exact .inl (by simp [hn])
          · exact .inr ⟨retryable hn, hatt⟩
        refine nextIs_breakEdge hb (edge.trans ?_)
        rw [endSlotAttempt_open hrem hk, endOpen_exhausted (by exact ends),
          notOpened_eq (by exact hlen)]
        rfl
      · refine nextIs_breakEdge hb (edge.trans ?_)
        rw [endSlotAttempt_cancel hrem hk, endCancel_retries (retryable hn) (by exact hatt)]
        rfl
      · refine nextIs_breakEdge hb (edge.trans ?_)
        rw [endSlotAttempt_cancel hrem hk, endCancel_exhausted (retryable hn) (by exact hatt),
          requestClearBreak_undelayed (by exact hdelay),
          startClearBreak_begins (by exact hg) (by exact hpulse)]
        rfl
      · refine nextIs_breakEdge hb (edge.trans ?_)
        rw [endSlotAttempt_cancel hrem hk, endCancel_exhausted (retryable hn) (by exact hatt),
          requestClearBreak_undelayed (by exact hdelay), startClearBreak_guarded (by exact hg)]
        rfl
end

section
/-! The frame a station may bid with, and the arbiter that asks for it (R21–R23, R30, R31, R100). -/

namespace Sys2Proof.Machine

open Sys2Proof

/-! ### The eligible frame (R23, R30, R31) -/

/-- A QUEUED slot frame is the slot's eligible frame. -/
theorem eligibleSlot_queued {f : SlotFrame} {s : State} (hs : s.tm.slot = some f)
    (hf : f.state = .queued) : eligibleSlot s = some .slot := by
  simp [eligibleSlot, hs, hf]

/-- Without a QUEUED frame the slot offers nothing. -/
theorem eligibleSlot_none {s : State} (h : ∀ f, s.tm.slot = some f → f.state ≠ .queued) :
    eligibleSlot s = none := by
  cases hs : s.tm.slot with
  | none => simp [eligibleSlot, hs]
  | some f => simp [eligibleSlot, hs, h f hs]

/-- The normal queue waits while the round flag is set (R30). -/
theorem eligibleNormal_flagged {s : State} (h : s.arb.roundFlag = true) :
    eligibleNormal s = none := by
  simp [eligibleNormal, h]

/-- An empty normal queue offers nothing. -/
theorem eligibleNormal_empty {s : State} (h : s.tm.normal = []) : eligibleNormal s = none := by
  simp [eligibleNormal, h]

/-- With the round flag clear the normal queue offers its head. -/
theorem eligibleNormal_head {i : Fin 16} {rest : List (Fin 16)} {s : State}
    (hf : s.arb.roundFlag = false) (hn : s.tm.normal = i :: rest) :
    eligibleNormal s = some (.descriptor i) := by
  simp [eligibleNormal, hf, hn]

/-- In ONLINE the slot's frame comes before every descriptor. -/
theorem eligibleFrame_slot {f : FrameRef} {s : State} (ho : s.ctl.state = .online)
    (hs : eligibleSlot s = some f) : eligibleFrame s = some f := by
  simp [eligibleFrame, ho, hs]

/-- In ONLINE the urgent head comes next. -/
theorem eligibleFrame_urgent {i : Fin 16} {rest : List (Fin 16)} {s : State}
    (ho : s.ctl.state = .online) (hs : eligibleSlot s = none) (hu : s.tm.urgent = i :: rest) :
    eligibleFrame s = some (.descriptor i) := by
  simp [eligibleFrame, ho, hs, hu]

/-- In ONLINE the normal queue is left when slot and urgent queue offer nothing. -/
theorem eligibleFrame_normal {s : State} (ho : s.ctl.state = .online)
    (hs : eligibleSlot s = none) (hu : s.tm.urgent = []) :
    eligibleFrame s = eligibleNormal s := by
  simp [eligibleFrame, ho, hs, hu]

/-- In JOINING with participation begun the slot alone counts (R31). -/
theorem eligibleFrame_participating {s : State} (hj : s.ctl.state = .joining)
    (hp : s.ctl.joinPhase = some .participating) : eligibleFrame s = eligibleSlot s := by
  simp [eligibleFrame, hj, hp]

/-- Before participation begins nothing is eligible. -/
theorem eligibleFrame_awaiting {s : State} (hj : s.ctl.state = .joining)
    (hp : s.ctl.joinPhase ≠ some .participating) : eligibleFrame s = none := by
  simp [eligibleFrame, hj, hp]

/-- In LEAVING, OFFLINE and FAULTED nothing is eligible. -/
theorem eligibleFrame_elsewhere {s : State}
    (h : s.ctl.state = .leaving ∨ s.ctl.state = .offline ∨ s.ctl.state = .faulted) :
    eligibleFrame s = none := by
  rcases h with h | h | h <;> simp [eligibleFrame, h]

/-! ### Selection, and the opening of a window (R21–R23, R25) -/

/-- A descriptor is SELECTED and stands in no queue (R23, R100). -/
def descriptorSelected (i : Fin 16) (s : State) : State :=
  { s with
    tm.table := s.tm.table.set i { s.tm.table[i] with state := .selected }
    tm.urgent := s.tm.urgent.filter (· ≠ i)
    tm.normal := s.tm.normal.filter (· ≠ i) }

/-- The slot's frame is SELECTED (R23, R101). -/
def slotSelected (f : SlotFrame) (s : State) : State :=
  { s with tm.slot := some { f with state := .selected } }

/-- The bid of a frame is driven as the levels sensed on D0–D7 allow, in BIDDING with the settle timer at zero (R21, R25). Bid and levels are read before the frame is selected. -/
def windowOpened (f : FrameRef) (before selected : State) : State :=
  { selected with
    line.drive.req := true
    line.drive.data := bidDrive (bidByte f before) before.line.sense.data
    arb.phase := .bidding
    arb.bid := some (bidByte f before)
    arb.settle := some 0
    arb.roundGap := none }

/-- The selection of a descriptor. -/
theorem selectFrame_descriptor (i : Fin 16) (s : State) :
    selectFrame (.descriptor i) s = descriptorSelected i s := by
  have test : (fun j : Fin 16 => j != i) = fun j => decide (j ≠ i) := by
    funext j
    by_cases h : j = i <;> simp [h]
  simp only [selectFrame, leaveQueue, setDescriptor, test]
  rfl

/-- The selection of the slot's frame. -/
theorem selectFrame_slot {f : SlotFrame} {s : State} (h : s.tm.slot = some f) :
    selectFrame .slot s = slotSelected f s := by
  simp [selectFrame, h, setSlot, slotSelected]

/-- A window opens with the selection of its frame. -/
theorem openWindow_eq (f : FrameRef) (s : State) :
    openWindow f s = windowOpened f s (selectFrame f s) := by
  simp [openWindow, windowOpened]

/-- A window opened with a descriptor. -/
theorem openWindow_descriptor (i : Fin 16) (s : State) :
    openWindow (.descriptor i) s = windowOpened (.descriptor i) s (descriptorSelected i s) := by
  rw [openWindow_eq, selectFrame_descriptor]

/-- A window opened with the slot's frame. -/
theorem openWindow_slot {f : SlotFrame} {s : State} (h : s.tm.slot = some f) :
    openWindow .slot s = windowOpened .slot s (slotSelected f s) := by
  rw [openWindow_eq, selectFrame_slot h]

/-- From STANDBY the bus is requested for an eligible frame (R21). -/
theorem askArbiter_requests {f : FrameRef} {s : State} (hp : s.arb.phase = .standby)
    (he : eligibleFrame s = some f) : askArbiter s = openWindow f s := by
  simp [askArbiter, hp, he]

/-- Without an eligible frame the bus is not requested (R21). -/
theorem askArbiter_without {s : State} (he : eligibleFrame s = none) : askArbiter s = s := by
  simp [askArbiter, he]

end Sys2Proof.Machine

open Sys2Proof Sys2Proof.Machine

/-- Settles O25: the eligible frame by station state and by what slot and queues offer, then the arbiter that asks by what is eligible. -/
theorem eligibleFrameIsRequested : Obligations.EligibleFrameIsRequested := by
  refine ⟨fun s => ⟨fun ho f hs hf => ?_, fun ho hslot => ?_, fun hj hp => ?_, ?_, ?_⟩,
    fun s => ⟨fun i hp he => ?_, fun f hp he hs => ?_, ?_⟩⟩
  · exact eligibleFrame_slot ho (eligibleSlot_queued hs hf)
  · have empty := eligibleSlot_none hslot
    refine ⟨fun i rest hu => eligibleFrame_urgent ho empty hu, fun hu hf => ?_,
      fun i rest hu hf hn => ?_, fun hu hn => ?_⟩ <;> rw [eligibleFrame_normal ho empty hu]
    · exact eligibleNormal_flagged hf
    · exact eligibleNormal_head hf hn
    · exact eligibleNormal_empty hn
  · rw [eligibleFrame_participating hj hp]
    exact ⟨fun f hs hf => eligibleSlot_queued hs hf, eligibleSlot_none⟩
  · exact eligibleFrame_awaiting
  · exact eligibleFrame_elsewhere
  · exact (askArbiter_requests hp he).trans (openWindow_descriptor i s)
  · exact (askArbiter_requests hp he).trans (openWindow_slot hs)
  · rintro (hp | he)
    · exact askArbiter_waits hp
    · exact askArbiter_without he
end

section
/-! The bid byte and the drive of a bidder (R24, R25). -/

namespace Sys2Proof.Machine

open Sys2Proof

/-! ### The bid byte (R24) -/

/-- The bits above the station number in a descriptor's bid, by its class. -/
def classRange : TxClass → Byte
  | .urgent => 0x40
  | .normal => 0x00

/-- The bits of a bid above the station number, by kind of frame. -/
def bidRange (f : FrameRef) (s : State) : Byte :=
  match f with
  | .slot => 0x80
  | .descriptor i => classRange s.tm.table[i].cls

/-- A bid is its range with the station number below. -/
theorem bidByte_eq (f : FrameRef) (s : State) :
    bidByte f s = bidRange f s ||| numberByte s.ctl.number := by
  cases f with
  | slot => rfl
  | descriptor i =>
    simp only [bidByte, bidRange]
    cases s.tm.table[i].cls
    case urgent => rfl
    case normal => exact (BitVec.zero_or ..).symm

/-- There are three ranges. -/
theorem bidRange_cases (f : FrameRef) (s : State) :
    bidRange f s = 0x80 ∨ bidRange f s = 0x40 ∨ bidRange f s = 0x00 := by
  cases f with
  | slot => exact .inl rfl
  | descriptor i =>
    simp only [bidRange]
    cases s.tm.table[i].cls
    case urgent => exact .inr (.inl rfl)
    case normal => exact .inr (.inr rfl)

/-- The number stands in bits 4–0 of a bid, bit 5 is 0, and range and number do not overlap. -/
theorem bid_fields (range : Byte) (n : StationNumber)
    (h : range = 0x80 ∨ range = 0x40 ∨ range = 0x00) :
    (range ||| numberByte n).extractLsb' 0 5 = n ∧
      (range ||| numberByte n).getLsbD 5 = false ∧
      (range ||| numberByte n).toNat = range.toNat + n.toNat := by
  rcases h with rfl | rfl | rfl <;> revert n <;> decide

/-- The value of a bid: its range plus the station number. -/
theorem bidByte_toNat (f : FrameRef) (s : State) :
    (bidByte f s).toNat = (bidRange f s).toNat + s.ctl.number.toNat := by
  obtain ⟨_, _, value⟩ := bid_fields _ s.ctl.number (bidRange_cases f s)
  rw [bidByte_eq, value]

/-- A bid lies at most 1Fh above the start of its range. -/
theorem bidByte_range {f : FrameRef} {s : State} {range : Byte} (h : bidRange f s = range) :
    range.toNat ≤ (bidByte f s).toNat ∧ (bidByte f s).toNat ≤ range.toNat + 0x1F := by
  have below : s.ctl.number.toNat < 32 := s.ctl.number.isLt
  rw [bidByte_toNat, h]
  omega

/-! ### The drive of a bidder (R25) -/

/-- Raising the lines of a list that meet a test raises those lines and no other. -/
theorem getLsbD_raised (test : Nat → Bool) (k : Nat) (hk : k < 8) :
    ∀ (lines : List Nat) (drive : Byte),
      (lines.foldl (fun d i => if test i then d ||| (1#8 <<< i) else d) drive).getLsbD k = true ↔
        drive.getLsbD k = true ∨ k ∈ lines ∧ test k = true
  | [], drive => by simp
  | i :: rest, drive => by
    have raised : (1#8 <<< i).getLsbD k = true ↔ k = i := by
      simp only [BitVec.getLsbD_shiftLeft, BitVec.getLsbD_one, Bool.and_eq_true,
        Bool.not_eq_true', decide_eq_true_eq, decide_eq_false_iff_not]
      omega
    rw [List.foldl_cons, getLsbD_raised test k hk rest]
    by_cases ht : test i = true
    · rw [if_pos ht, BitVec.getLsbD_or, Bool.or_eq_true, raised]
      by_cases hi : k = i <;> simp [hi, ht]
    · rw [if_neg ht]
      by_cases hi : k = i <;> simp [hi, ht]

/-- A byte shifted down past bit k is zero exactly when it has no 1 above bit k. -/
theorem shifted_out_iff (b : Byte) (k : Nat) :
    b >>> (k + 1) = 0 ↔ ∀ j, k < j → j < 8 → b.getLsbD j = false := by
  constructor
  · intro h j hkj _
    have bit := congrArg (·.getLsbD (j - (k + 1))) h
    simpa [BitVec.getLsbD_ushiftRight, Nat.add_sub_cancel' (Nat.succ_le_of_lt hkj)] using bit
  · intro h
    refine BitVec.eq_of_getLsbD_eq fun i _ => ?_
    refine (BitVec.getLsbD_ushiftRight ..).trans (Eq.trans ?_ BitVec.getLsbD_zero.symm)
    by_cases hi : k + 1 + i < 8
    · exact h _ (by omega) hi
    · exact BitVec.getLsbD_of_ge _ _ (by omega)

/-- A line stands against a bid where it is sensed asserted and the bid has 0. -/
theorem getLsbD_against (bid sensed : Byte) {j : Nat} (hj : j < 8) :
    (sensed &&& ~~~bid).getLsbD j = false ↔
      ¬ (bid.getLsbD j = false ∧ sensed.getLsbD j = true) := by
  rw [BitVec.getLsbD_and, BitVec.getLsbD_not]
  cases bid.getLsbD j <;> cases sensed.getLsbD j <;> simp [hj]

/-- A bidder drives each 1 of its bid above which no line stands against it. -/
theorem getLsbD_bidDrive (bid sensed : Byte) {k : Nat} (hk : k < 8) :
    (bidDrive bid sensed).getLsbD k = true ↔
      bid.getLsbD k = true ∧ (sensed &&& ~~~bid) >>> (k + 1) = 0 := by
  simp only [bidDrive]
  rw [getLsbD_raised _ k hk]
  simp [hk]

end Sys2Proof.Machine

open Sys2Proof Sys2Proof.Machine

/-- Settles O26: a bid is its range plus the number, and a line is driven by the bits above it. -/
theorem bidBytesAndTheirDrive : Obligations.BidBytesAndTheirDrive := by
  refine ⟨fun f s => ?_, fun bid sensed k hk => ?_⟩
  · obtain ⟨number, bit5, _⟩ := bid_fields _ s.ctl.number (bidRange_cases f s)
    rw [← bidByte_eq] at number bit5
    refine ⟨number, bit5, ?_, ?_, ?_⟩
    · rintro rfl
      exact bidByte_range (range := 0x80) rfl
    · rintro i rfl hc
      have range : bidRange (.descriptor i) s = 0x40 := congrArg classRange hc
      exact bidByte_range range
    · rintro i rfl hc
      have range : bidRange (.descriptor i) s = 0x00 := congrArg classRange hc
      exact (bidByte_range range).2
  · rw [getLsbD_bidDrive bid sensed hk, shifted_out_iff]
    refine and_congr_right fun _ => forall_congr' fun j => ?_
    exact imp_congr_right fun _ => forall_congr' fun hj => getLsbD_against bid sensed hj
end

section
/-! The arbiter's events: the idle bus, a sensed REQ, the contest and its decision, the winner (R14, R15, R21, R22, R25–R27, R30, R101, R109). -/

namespace Sys2Proof.Machine

open Sys2Proof

/-! ### The idle bus (R15, R21) -/

/-- Without a frame in progress a release of OWN and REQ stops the silence timer and no more. -/
theorem ownReleaseSensed_idle {s : State} (h : s.fe.frame.position = .none) :
    ownReleaseSensed false s =
      stopSilence { s with line.sense.own := false, line.sense.req := false } := by
  simp [ownReleaseSensed, ownReleased, h]

/-- BUS_IDLE_SENSED at an arbiter in OUTSIDE. -/
theorem busIdleSensed_outside {s : State} (ha : s.arb.phase = .outside)
    (hb : s.line.sense.brk = false) (hp : s.fe.frame.position = .none) :
    busIdleSensed s =
      enterStandby (stopSilence { s with line.sense.own := false, line.sense.req := false }) := by
  simp [busIdleSensed, hb, ownReleaseSensed_idle hp, ha]

/-! ### A sensed REQ (R15, R22) -/

/-- REQ is sensed asserted and the silence timer starts (R15). -/
def reqHeard (s : State) : State :=
  { s with line.sense.req := true, hs.silence := some 0 }

/-- REQ_SENSED at a participant in STANDBY whose silence timer is stopped: the arbiter joins with an eligible frame, or enters OUTSIDE. -/
theorem reqSensed_standby {s : State} (ha : s.arb.phase = .standby)
    (hr : s.hs.role = .participant .ready) (hs : s.hs.silence = none)
    (hb : s.line.sense.brk = false) :
    reqSensed s = (eligibleFrame s).elim (enterOutside (reqHeard s)) (openWindow · (reqHeard s)) := by
  have heard : { s with
      line.sense.req := true
      hs.silence :=
        if s.hs.silence.isNone && s.hs.role != .none && !isTalker s && !s.line.sense.brk then some 0
        else s.hs.silence } = reqHeard s := by
    simp [reqHeard, isTalker, hr, hs, hb]
  have eligible : eligibleFrame (reqHeard s) = eligibleFrame s := eligibleFrame_of_parts rfl rfl rfl
  simp only [reqSensed, heard, eligible]
  rw [if_pos (by exact ha)]
  cases eligibleFrame s <;> rfl

/-! ### The contest and its decision (R25–R27) -/

/-- In BIDDING a change of the lines applies the drive condition again (R25). -/
theorem bidLineChange_bidding {bid : Byte} {s : State} (ha : s.arb.phase = .bidding)
    (hb : s.arb.bid = some bid) (d : Byte) :
    bidLineChange d s =
      { s with line.sense.data := d, line.drive.data := bidDrive bid d } := by
  simp [bidLineChange, ha, hb]

/-- A sample equal to the bid wins (R26). -/
theorem arbitrationDecision_wins {bid : Byte} {s : State} (ha : s.arb.phase = .bidding)
    (hb : s.arb.bid = some bid) :
    arbitrationDecision bid s =
      { s with line.sense.data := bid, line.drive.data := bid, arb.phase := .won } := by
  simp [arbitrationDecision, ha, hb]

/-- Any other sample loses, and the bid is given up (R27). -/
theorem arbitrationDecision_loses {d bid : Byte} {s : State} (ha : s.arb.phase = .bidding)
    (hb : s.arb.bid = some bid) (hd : d ≠ bid) :
    arbitrationDecision d s = giveUpBid { s with line.sense.data := d } := by
  simp [arbitrationDecision, ha, hb, hd]

/-! ### The round gap (R30) -/

/-- In STANDBY the expired gap clears the round flag, and the arbiter asks. -/
theorem roundGapExpiry_standby {s : State} (ha : s.arb.phase = .standby)
    (hg : s.arb.roundGap ≠ none) :
    roundGapExpiry s = askArbiter { s with arb.roundFlag := false, arb.roundGap := none } := by
  simp [roundGapExpiry, ha, Option.isSome_iff_ne_none, hg]

/-! ### The winner (R14, R26, R30, R109) -/

/-- The winner owns the bus as talker in AWAIT_READY with its frame begun, and its round flag as given. -/
def busTaken (flag : Bool) (s : State) : State :=
  { s with
    line.drive.own := true
    line.drive.req := false
    line.drive.data := 0
    line.drive.pend := false
    line.drive.wait := false
    line.heldFrame := s.line.heldFrame.filter (· != .silence)
    arb := { phase := .owner, bid := none, settle := none, roundFlag := flag, roundGap := none }
    hs.role := .talker .awaitReady
    hs.stall := some 0
    hs.silence := none
    hs.setUp := none
    hs.window := none
    hs.complete := false
    fe := { frame := FrameState.started .talker, sentBytes := 0, comparator := none } }

/-- WON_HOLD_END in WON. -/
theorem wonHoldEnd_won {s : State} (h : s.arb.phase = .won) :
    wonHoldEnd s = busTaken (s.arb.roundFlag || selectedIsNormal s) (beginAttempt s) := by
  simp only [wonHoldEnd, h, if_true]
  rfl

/-- A SELECTED frame in the slot is the frame SELECTED. -/
theorem selectedFrame_slot {f : SlotFrame} {s : State} (hs : s.tm.slot = some f)
    (hf : f.state = .selected) : selectedFrame s = some .slot := by
  simp [selectedFrame, hs, hf]

/-- The attempt of a descriptor begins: IN_FLIGHT, one attempt more, no outcome handed (R109, R110). -/
theorem beginAttempt_descriptor {i : Fin 16} {s : State}
    (h : selectedFrame s = some (.descriptor i)) :
    beginAttempt s = { s with
      tm.handed := none
      tm.table := s.tm.table.set i
        { s.tm.table[i] with state := .inFlight, attempts := s.tm.table[i].attempts + 1 } } := by
  simp [beginAttempt, h, setDescriptor]

/-- The attempt of a slot frame begins (R101, R109). -/
theorem beginAttempt_slot {f : SlotFrame} {s : State} (hs : s.tm.slot = some f)
    (hf : f.state = .selected) :
    beginAttempt s = { s with
      tm.handed := none
      tm.slot := some { f with state := .inFlight, attempts := f.attempts + 1 } } := by
  simp [beginAttempt, selectedFrame_slot hs hf, hs, setSlot]

/-- A descriptor's bid is normal by its class (R30). -/
theorem selectedIsNormal_descriptor {i : Fin 16} {s : State}
    (h : selectedFrame s = some (.descriptor i)) :
    selectedIsNormal s = (s.tm.table[i].cls == .normal) := by
  simp [selectedIsNormal, h]

/-- A slot frame's bid is never normal (R30). -/
theorem selectedIsNormal_slot {s : State} (h : selectedFrame s = some .slot) :
    selectedIsNormal s = false := by
  simp [selectedIsNormal, h]

end Sys2Proof.Machine

open Sys2Proof Sys2Proof.Machine

/-- Settles O27, event by event; a sensed REQ by what is eligible. -/
theorem arbiterFollowsTheBus : Obligations.ArbiterFollowsTheBus := by
  intro d s hbus
  refine ⟨fun ha hb hp => ?_, fun ha hr hs hb => ?_, fun bid ha hbid => ?_, fun ha hg => ?_⟩
  · exact nextIs_busIdleSensed hbus (busIdleSensed_outside ha hb hp)
  · have heard := reqSensed_standby ha hr hs hb
    refine ⟨fun i he => ?_, fun f he hf => ?_, fun he => ?_⟩ <;>
      refine nextIs_reqSensed hbus (heard.trans ?_) <;> rw [he]
    · exact openWindow_descriptor i (reqHeard s)
    · exact openWindow_slot (s := reqHeard s) hf
    · rfl
  · exact nextIs_of_busChange rfl hbus (bidLineChange_bidding ha hbid d)
  · exact nextIs_of_busChange rfl hbus (roundGapExpiry_standby ha hg)

/-- Settles O28: a win by the sample, a loss by the frame that goes back. -/
theorem decisionWinsOrLoses : Obligations.DecisionWinsOrLoses := by
  intro d bid s hbus ha hbid
  refine ⟨?_, fun hd i hi => ?_, fun hd f hs hf => ?_⟩
  · rintro rfl
    exact nextIs_of_busChange rfl hbus (arbitrationDecision_wins ha hbid)
  · refine nextIs_of_busChange rfl hbus ((arbitrationDecision_loses ha hbid hd).trans ?_)
    exact giveUpBid_descriptor (s := { s with line.sense.data := d }) hi
  · refine nextIs_of_busChange rfl hbus ((arbitrationDecision_loses ha hbid hd).trans ?_)
    exact giveUpBid_slot (s := { s with line.sense.data := d }) hs hf

/-- Settles O29: the bus is taken, and the attempt begins by the frame that was SELECTED. -/
theorem winnerTakesTheBus : Obligations.WinnerTakesTheBus := by
  intro s hbus hwon
  refine ⟨fun i hi => ?_, fun f hs hf => ?_⟩ <;>
    refine nextIs_of_busChange rfl hbus ((wonHoldEnd_won hwon).trans ?_)
  · rw [selectedIsNormal_descriptor hi, beginAttempt_descriptor hi]
    rfl
  · rw [selectedIsNormal_slot (selectedFrame_slot hs hf), beginAttempt_slot hs hf, Bool.or_false]
    rfl
end

section
/-! The bytes of a frame as a listener parses them, and the system frames as a talker builds them (R33–R49). -/

namespace Sys2Proof.Machine

open Sys2Proof

/-! ### The header (R34–R37) -/

/-- A header byte that is in order leaves the verdict, any other sets it (R37). -/
theorem headerVerdict_eq {bad : Bool} {good : Prop} [Decidable good] (h : bad = false ↔ good)
    (f : FrameState) :
    headerVerdict bad f = if good then f.verdict else some .headerError := by
  cases bad <;> simp [headerVerdict, ← h]

/-- The defined ADDRESS values (R34). -/
theorem isDefinedAddress_iff (b : Byte) :
    isDefinedAddress b = true ↔ b ≤ 0x1F ∨ 0x40 ≤ b ∧ b ≤ 0x4F ∨ b = 0x7F := by
  simp [isDefinedAddress, isRendezvousAddress, isStationAddress, isGroupAddress, broadcast]

/-- A group address or broadcast is a defined ADDRESS. -/
theorem isDefinedAddress_of_rendezvous {b : Byte} (h : isRendezvousAddress b = true) :
    isDefinedAddress b = true := by
  simp [isDefinedAddress, h]

/-- A station address is a defined ADDRESS. -/
theorem isDefinedAddress_of_station {b : Byte} (h : isStationAddress b = true) :
    isDefinedAddress b = true := by
  simp [isDefinedAddress, h]

/-- The four TYPE values are 01h–04h (R36). -/
theorem unknownType_iff (d : Byte) :
    ¬ (d = typeData ∨ d = typeOpen ∨ d = typeCancel ∨ d = typeHello) ↔ d = 0x00 ∨ 0x04 < d := by
  simp only [typeData, typeOpen, typeCancel, typeHello]
  bv_omega

/-- What makes header byte 3 an error, with the ADDRESS and SOURCE of its frame (R36). -/
theorem typeInError_iff {a c : Byte} {b : BusByte} {f : FrameState} (ha : f.address = some a)
    (hc : f.source = some c) :
    typeInError b f = true ↔
      b.kind = false ∨ b.data = 0x00 ∨ 0x04 < b.data ∨
        (b.data = 0x02 ∨ b.data = 0x03) ∧ a ≤ 0x1F ∨
        b.data = 0x04 ∧ (a ≠ c ∨ b.last = false) := by
  have unknown := unknownType_iff b.data
  simp only [typeInError, ha, hc, isStationAddress, Bool.or_eq_true, Bool.and_eq_true,
    Bool.not_eq_true', bne_iff_ne, beq_iff_eq, decide_eq_true_eq, ← Bool.not_eq_true,
    or_assoc, ne_eq, Option.some.injEq] at unknown ⊢
  rw [unknown, or_assoc]
  rfl

/-- Header byte 3 gives the frame its TYPE, and with LAST no payload (R36). -/
theorem parseType_header (number : StationNumber) (subscriptions : Vector (Option Policy) 16)
    {b : BusByte} {f : FrameState} (ht : f.type = none) :
    (parseType number subscriptions b f).1.type = some b.data ∧
      (parseType number subscriptions b f).1.position = if b.last then .type else .payload := by
  simp [parseType, ht]

/-- A header byte 3 without an error in a GOOD frame: TYPE, the address decision and the payload's first counts (R36, R38). -/
theorem parseType_good {number : StationNumber} {subscriptions : Vector (Option Policy) 16}
    {a : Byte} {b : BusByte} {f : FrameState} (ht : f.type = none)
    (hv : f.verdict = some .good) (ha : f.address = some a) (he : typeInError b f = false) :
    parseType number subscriptions b f =
      ({ f with
        position := if b.last then .type else .payload
        type := some b.data
        addressed :=
          if f.standing = some .talker then none
          else some (addressReaches number subscriptions a)
        expandedLength := if b.data = typeData then some 0 else none
        payloadCount := if b.data = typeOpen ∨ b.data = typeCancel then some 0 else none },
        if b.data = typeCancel then .cancelHeader a else .nothing) := by
  simp [parseType, ht, hv, ha, he, headerVerdict]

/-- A header byte 3 in error, or behind a header error: no address is decided and nothing is handed on (R36, R37). -/
theorem parseType_bad {number : StationNumber} {subscriptions : Vector (Option Policy) 16}
    {b : BusByte} {f : FrameState} (ht : f.type = none)
    (he : typeInError b f = true ∨ f.verdict = some .headerError) :
    parseType number subscriptions b f =
      ({ f with
        position := if b.last then .type else .payload
        type := some b.data
        verdict := some .headerError
        addressed := if f.standing = some .talker then none else some false
        expandedLength := if b.data = typeData then some 0 else none
        payloadCount := if b.data = typeOpen ∨ b.data = typeCancel then some 0 else none },
        .nothing) := by
  have verdict : headerVerdict (typeInError b f) f = some .headerError := by
    rcases he with he | he <;> simp [headerVerdict, he]
  have spoilt : (Verdict.headerError == Verdict.good) = false := rfl
  simp [parseType, ht, verdict, spoilt]

/-! ### The byte by its position -/

section Position

variable {number : StationNumber} {subscriptions : Vector (Option Policy) 16} {b : BusByte}
  {f : FrameState}

/-- Header byte 1. -/
theorem parseByte_address (hp : f.position = .address) :
    parseByte number subscriptions b f = (parseAddress b f, .nothing) := by
  simp [parseByte, hp]

/-- Header byte 2. -/
theorem parseByte_source (hp : f.position = .source) :
    parseByte number subscriptions b f = (parseSource b f, .nothing) := by
  simp [parseByte, hp]

/-- Header byte 3. -/
theorem parseByte_type (hp : f.position = .type) :
    parseByte number subscriptions b f = parseType number subscriptions b f := by
  simp [parseByte, hp]

/-- A byte of the payload. -/
theorem parseByte_payload (hp : f.position = .payload ∨ f.position = .afterMarker) :
    parseByte number subscriptions b f = parsePayload b f := by
  rcases hp with hp | hp <;> simp [parseByte, hp]

/-- After an error nothing changes any more (R37, R44). -/
theorem parsePayload_bad (hv : f.verdict ≠ some .good) : parsePayload b f = (f, .nothing) := by
  simp [parsePayload, hv]

/-- A byte of the payload of a GOOD DATA. -/
theorem parseByte_data (hp : f.position = .payload ∨ f.position = .afterMarker)
    (hv : f.verdict = some .good) (ht : f.type = some typeData) :
    parseByte number subscriptions b f = parseData b f := by
  simp [parseByte_payload hp, parsePayload, hv, ht]

/-- A byte of the payload of a GOOD OPEN. -/
theorem parseByte_open (hp : f.position = .payload ∨ f.position = .afterMarker)
    (hv : f.verdict = some .good) (ht : f.type = some typeOpen) :
    parseByte number subscriptions b f = parseOpen b f := by
  simp [parseByte_payload hp, parsePayload, hv, ht, typeOpen, typeData]

/-- A byte of the payload of a GOOD CANCEL. -/
theorem parseByte_cancel (hp : f.position = .payload ∨ f.position = .afterMarker)
    (hv : f.verdict = some .good) (ht : f.type = some typeCancel) :
    parseByte number subscriptions b f = parseCancel b f := by
  simp [parseByte_payload hp, parsePayload, hv, ht, typeOpen, typeData, typeCancel]

/-! ### The payload of a DATA frame (R42–R44) -/

/-- A DATA payload behind a whole item, with this many bytes heard. -/
def dataHeard (f : FrameState) (n : Nat) : FrameState :=
  { f with position := .payload, runCount := none, expandedLength := some n }

/-- Copies within the largest payload are handed on. -/
theorem parseCopies_fits {n k : Nat} (hn : f.expandedLength = some n) (h : n + k ≤ 1024) :
    parseCopies k b f = (dataHeard f (n + k), .copies b.data k b.last) := by
  simp [parseCopies, hn, h, dataHeard]

/-- Copies beyond the largest payload spoil the frame. -/
theorem parseCopies_exceeds {n k : Nat} (hn : f.expandedLength = some n) (h : 1024 < n + k) :
    parseCopies k b f = (f.spoiled, .malformed) := by
  simp [parseCopies, hn, h]

/-- A run marker holds the run count back for the byte behind it (R42). -/
theorem parseData_marker (hp : f.position = .payload) (hk : b.kind = true)
    (lo : 0x80 ≤ b.data) (hi : b.data ≤ 0xBF) (hl : b.last = false) :
    parseData b f =
      ({ f with position := .afterMarker, runCount := some (b.data.toNat - 0x80 + 3) },
        .nothing) := by
  simp only [parseData, hp, hk, reduceCtorEq, if_false, if_true]
  exact if_pos ⟨lo, hi, hl⟩

/-- Any other control byte of a DATA payload spoils the frame (R44). -/
theorem parseData_control (hp : f.position = .payload) (hk : b.kind = true)
    (h : b.data < 0x80 ∨ 0xBF < b.data ∨ b.last = true) :
    parseData b f = (f.spoiled, .malformed) := by
  simp only [parseData, hp, hk, reduceCtorEq, if_false, if_true]
  refine if_neg ?_
  rintro ⟨lo, hi, hl⟩
  rcases h with h | h | h
  · exact absurd lo (BitVec.not_le.2 h)
  · exact absurd hi (BitVec.not_le.2 h)
  · simp [h] at hl

/-- A data byte outside a run is one copy. -/
theorem parseData_byte (hp : f.position = .payload) (hk : b.kind = false) :
    parseData b f = parseCopies 1 b f := by
  simp [parseData, hp, hk]

/-- The data byte behind a run marker is as many copies as the marker told. -/
theorem parseData_run {k : Nat} (hp : f.position = .afterMarker) (hr : f.runCount = some k)
    (hk : b.kind = false) : parseData b f = parseCopies k b f := by
  simp [parseData, hp, hr, hk]

/-- A control byte behind a run marker spoils the frame (R44). -/
theorem parseData_unfinished (hp : f.position = .afterMarker) (hk : b.kind = true) :
    parseData b f = (f.spoiled, .malformed) := by
  simp [parseData, hp, hk]

/-! ### The payload of an OPEN and of a CANCEL (R45, R46) -/

/-- A control byte spoils an OPEN. -/
theorem parseOpen_control (hk : b.kind = true) : parseOpen b f = (f.spoiled, .malformed) := by
  simp [parseOpen, hk]

/-- The first two values of an OPEN are counted and hand nothing on. -/
theorem parseOpen_value {n : Nat} (hk : b.kind = false) (hc : f.payloadCount = some n)
    (hn : n < 2) (hl : b.last = false) : parseOpen b f = (f.withOpenValue b.data, .nothing) := by
  obtain rfl | rfl : n = 0 ∨ n = 1 := by omega
  all_goals simp [parseOpen, hk, hc, hl]

/-- The third value of an OPEN, with LAST, completes its payload. -/
theorem parseOpen_final (hk : b.kind = false) (hc : f.payloadCount = some 2)
    (hl : b.last = true) :
    parseOpen b f =
      (f.withOpenValue b.data,
        .openFinal (f.address.getD 0) (f.source.getD 0) (f.tag.getD 0)
          (word16 (f.deadlineHigh.getD 0) b.data)) := by
  simp [parseOpen, hk, hc, hl]

/-- LAST before the third value, no LAST on it, and a fourth value spoil an OPEN; that a value heard behind LAST counts as a fourth is the model's choice (log 41). -/
theorem parseOpen_bad {n : Nat} (hk : b.kind = false) (hc : f.payloadCount = some n)
    (h : n < 2 ∧ b.last = true ∨ n = 2 ∧ b.last = false ∨ n = 3) :
    parseOpen b f = ((f.withOpenValue b.data).spoiled, .malformed) := by
  obtain ⟨rfl, hl⟩ | ⟨rfl, hl⟩ | ⟨rfl, hl⟩ | rfl : n = 0 ∧ b.last = true ∨
      n = 1 ∧ b.last = true ∨ n = 2 ∧ b.last = false ∨ n = 3 := by
    rcases h with ⟨hn, hl⟩ | h | h
    · obtain rfl | rfl : n = 0 ∨ n = 1 := by omega
      · exact .inl ⟨rfl, hl⟩
      · exact .inr (.inl ⟨rfl, hl⟩)
    · exact .inr (.inr (.inl h))
    · exact .inr (.inr (.inr h))
  all_goals simp [parseOpen, *]

/-- The values of an OPEN by their count: tag, deadline high, deadline low, and no fourth. -/
theorem withOpenValue_by_count (v : Byte) (f : FrameState) :
    (f.payloadCount = some 0 →
      f.withOpenValue v = { f with payloadCount := some 1, tag := some v }) ∧
    (f.payloadCount = some 1 →
      f.withOpenValue v = { f with payloadCount := some 2, deadlineHigh := some v }) ∧
    (f.payloadCount = some 2 →
      f.withOpenValue v = { f with payloadCount := some 3, deadlineLow := some v }) ∧
    (f.payloadCount = some 3 → f.withOpenValue v = f) := by
  refine ⟨fun h => ?_, fun h => ?_, fun h => ?_, fun h => ?_⟩ <;>
    simp [FrameState.withOpenValue, h]

/-- A control byte spoils a CANCEL. -/
theorem parseCancel_control (hk : b.kind = true) :
    parseCancel b f = (f.spoiled, .malformed) := by
  simp [parseCancel, hk]

/-- The one value of a CANCEL, with LAST, completes its payload. -/
theorem parseCancel_final (hk : b.kind = false) (hc : f.payloadCount = some 0)
    (hl : b.last = true) :
    parseCancel b f =
      ({ f with payloadCount := some 1, tag := some b.data },
        .cancelFinal (f.address.getD 0) b.data) := by
  simp [parseCancel, FrameState.withCancelValue, hk, hc, hl]

/-- The value without LAST spoils a CANCEL. -/
theorem parseCancel_unended (hk : b.kind = false) (hc : f.payloadCount = some 0)
    (hl : b.last = false) :
    parseCancel b f =
      ({ f with payloadCount := some 1, tag := some b.data }.spoiled, .malformed) := by
  simp [parseCancel, FrameState.withCancelValue, hk, hc, hl]

/-- A second value spoils a CANCEL; that a value heard behind LAST counts as one is the model's choice (log 41). -/
theorem parseCancel_second (hk : b.kind = false) (hc : f.payloadCount = some 1) :
    parseCancel b f = (f.spoiled, .malformed) := by
  simp [parseCancel, FrameState.withCancelValue, hk, hc]

end Position

/-! ### A frame heard byte by byte -/

/-- Hearing a frame is hearing its first byte, then the rest. -/
theorem hear_cons {number : StationNumber} {subscriptions : Vector (Option Policy) 16}
    {b : BusByte} {f g : FrameState} {e : FrameEvent}
    (h : parseByte number subscriptions b f = (g, e)) (rest : List BusByte) :
    hear number subscriptions (b :: rest) f =
      ((hear number subscriptions rest g).1, e :: (hear number subscriptions rest g).2) := by
  simp [hear, h]

/-- The frame state of a participant after two header bytes without error. -/
def sourceHeard (address source : Byte) : FrameState :=
  { FrameState.started .participant with
    position := .type, address := some address, source := some source }

/-- ADDRESS and SOURCE as a talker builds them are heard without error. -/
theorem hear_addressAndSource {number : StationNumber}
    {subscriptions : Vector (Option Policy) 16} {address source : Byte}
    (ha : isDefinedAddress address = true) (hs : isStationAddress source = true)
    (rest : List BusByte) :
    hear number subscriptions (controlByte address :: controlByte source :: rest)
        (FrameState.started .participant) =
      ((hear number subscriptions rest (sourceHeard address source)).1,
        .nothing :: .nothing ::
          (hear number subscriptions rest (sourceHeard address source)).2) := by
  simp [hear, parseByte, FrameState.started, FrameState.absent, parseAddress, parseSource,
    controlByte, headerVerdict, ha, hs, sourceHeard]

/-- The frame state of a participant after a header without error. -/
def headerHeard (number : StationNumber) (subscriptions : Vector (Option Policy) 16)
    (address source : Byte) (b : BusByte) : FrameState :=
  { sourceHeard address source with
    position := if b.last then .type else .payload
    type := some b.data
    addressed := some (addressReaches number subscriptions address)
    expandedLength := if b.data = typeData then some 0 else none
    payloadCount := if b.data = typeOpen ∨ b.data = typeCancel then some 0 else none }

/-- A header as a talker builds it is heard without error; only a CANCEL's has an event. -/
theorem hear_header {number : StationNumber} {subscriptions : Vector (Option Policy) 16}
    {address source : Byte} {b : BusByte} (ha : isDefinedAddress address = true)
    (hs : isStationAddress source = true)
    (hb : typeInError b (sourceHeard address source) = false) (rest : List BusByte) :
    hear number subscriptions (controlByte address :: controlByte source :: b :: rest)
        (FrameState.started .participant) =
      ((hear number subscriptions rest (headerHeard number subscriptions address source b)).1,
        .nothing :: .nothing ::
          (if b.data = typeCancel then .cancelHeader address else .nothing) ::
          (hear number subscriptions rest
            (headerHeard number subscriptions address source b)).2) := by
  have heard : parseByte number subscriptions b (sourceHeard address source) =
      (headerHeard number subscriptions address source b,
        if b.data = typeCancel then .cancelHeader address else .nothing) :=
    (parseByte_type rfl).trans (parseType_good rfl rfl rfl hb)
  rw [hear_addressAndSource ha hs, hear_cons heard]

/-- Header byte 3 of an OPEN or a CANCEL to a group or to all stations is no error. -/
theorem typeInError_rendezvous {group d : Byte} {f : FrameState} (hf : f.address = some group)
    (hg : isRendezvousAddress group = true) (hd : d = typeOpen ∨ d = typeCancel) :
    typeInError (controlByte d) f = false := by
  have hs := not_station_of_rendezvous group hg
  rcases hd with rfl | rfl <;>
    simp [typeInError, controlByte, hf, hs, typeOpen, typeCancel, typeHello, typeData]

/-- A deadline is its two bytes, high byte first (R178). -/
theorem word16_bytes (d : Deadline) : word16 (d.extractLsb' 8 8) (d.extractLsb' 0 8) = d := by
  simp only [word16]
  ext i hi
  simp only [BitVec.getElem_append, BitVec.getElem_extractLsb']
  split
  · simp [BitVec.getLsbD_eq_getElem, hi]
  · rename_i h
    rw [show 8 + (i - 8) = i by omega, BitVec.getLsbD_eq_getElem hi]

/-- An OPEN as a talker builds it is heard well formed. -/
theorem hear_open (number : StationNumber) (subscriptions : Vector (Option Policy) 16)
    {group source : Byte} (tag : Byte) (deadline : Deadline)
    (hg : isRendezvousAddress group = true) (hs : isStationAddress source = true) :
    ∃ f, hear number subscriptions
        (buildFrame group source typeOpen ((tag :: bytes16 deadline).map dataByte))
        (FrameState.started .participant) =
          (f, [.nothing, .nothing, .nothing, .nothing, .nothing,
            .openFinal group source tag deadline]) ∧
      endVerdict f = some .good := by
  have built : buildFrame group source typeOpen ((tag :: bytes16 deadline).map dataByte) =
      [controlByte group, controlByte source, controlByte typeOpen, dataByte tag,
        dataByte (deadline.extractLsb' 8 8),
        { dataByte (deadline.extractLsb' 0 8) with last := true }] := rfl
  rw [built, hear_header (isDefinedAddress_of_rendezvous hg) hs
      (typeInError_rendezvous rfl hg (.inl rfl)),
    hear_cons ((parseByte_open (.inl rfl) rfl rfl).trans (parseOpen_value rfl rfl (by decide) rfl)),
    hear_cons ((parseByte_open (.inl rfl) rfl rfl).trans (parseOpen_value rfl rfl (by decide) rfl)),
    hear_cons ((parseByte_open (.inl rfl) rfl rfl).trans (parseOpen_final rfl rfl rfl))]
  refine ⟨_, Prod.ext rfl ?_, rfl⟩
  rw [show (dataByte (deadline.extractLsb' 0 8)).data = deadline.extractLsb' 0 8 from rfl]
  exact congrArg (fun d => [FrameEvent.nothing, .nothing, .nothing, .nothing, .nothing,
    .openFinal group source tag d]) (word16_bytes deadline)

/-- A CANCEL as a talker builds it is heard well formed. -/
theorem hear_cancel (number : StationNumber) (subscriptions : Vector (Option Policy) 16)
    {group source : Byte} (tag : Byte) (hg : isRendezvousAddress group = true)
    (hs : isStationAddress source = true) :
    ∃ f, hear number subscriptions (buildFrame group source typeCancel [dataByte tag])
        (FrameState.started .participant) =
          (f, [.nothing, .nothing, .cancelHeader group, .cancelFinal group tag]) ∧
      endVerdict f = some .good := by
  have built : buildFrame group source typeCancel [dataByte tag] =
      [controlByte group, controlByte source, controlByte typeCancel,
        { dataByte tag with last := true }] := rfl
  rw [built, hear_header (isDefinedAddress_of_rendezvous hg) hs
      (typeInError_rendezvous rfl hg (.inr rfl)),
    hear_cons ((parseByte_cancel (.inl rfl) rfl rfl).trans (parseCancel_final rfl rfl rfl))]
  exact ⟨_, rfl, rfl⟩

/-- A HELLO as a talker builds it is heard well formed. -/
theorem hear_hello (number : StationNumber) (subscriptions : Vector (Option Policy) 16)
    {source : Byte} (hs : isStationAddress source = true) :
    ∃ f, hear number subscriptions (buildFrame source source typeHello [])
        (FrameState.started .participant) = (f, [.nothing, .nothing, .nothing]) ∧
      endVerdict f = some .good := by
  have built : buildFrame source source typeHello [] =
      [controlByte source, controlByte source, { controlByte typeHello with last := true }] := rfl
  rw [built, hear_header (isDefinedAddress_of_station hs) hs
    (by simp [typeInError, controlByte, sourceHeard, typeOpen, typeCancel, typeHello])]
  exact ⟨_, rfl, rfl⟩

end Sys2Proof.Machine

open Sys2Proof Sys2Proof.Machine

/-- Settles O44: the built frames byte by byte, then every byte by the position and the type of its frame. -/
theorem builtSystemFramesAreHeard : Obligations.BuiltSystemFramesAreHeard := by
  refine ⟨fun number subscriptions group source tag deadline hg hs =>
      ⟨hear_open number subscriptions tag deadline hg hs,
        hear_cancel number subscriptions tag hg hs, hear_hello number subscriptions hs⟩,
    fun number subscriptions b f => ?_⟩
  intro parsed spoiled
  refine ⟨fun hp => ?_, fun hp => ?_, fun a c hp ht ha hc => ?_, fun n hv ht hn => ?_,
    fun hp hv ht => ?_, fun hp hv ht => ?_, fun hp hv => ?_, fun hv ht hn => ?_, fun h => ?_⟩
  · refine (parseByte_address hp).trans ?_
    have inOrder : (!isDefinedAddress b.data || !b.kind || b.last) = false ↔
        (b.data ≤ 0x1F ∨ 0x40 ≤ b.data ∧ b.data ≤ 0x4F ∨ b.data = 0x7F) ∧
          b.kind = true ∧ b.last = false := by
      rw [← isDefinedAddress_iff]
      simp [and_assoc]
    rw [parseAddress, headerVerdict_eq inOrder]
  · refine (parseByte_source hp).trans ?_
    have inOrder : (!isStationAddress b.data || !b.kind || b.last) = false ↔
        b.data ≤ 0x1F ∧ b.kind = true ∧ b.last = false := by
      simp [isStationAddress, and_assoc]
    rw [parseSource, headerVerdict_eq inOrder]
  · intro wrong
    have error : typeInError b f = true ↔ wrong := typeInError_iff ha hc
    have parse : parsed = parseType number subscriptions b f := parseByte_type hp
    rcases parseType_header number subscriptions (b := b) ht with ⟨htype, hpos⟩
    refine ⟨parse ▸ htype, parse ▸ hpos, fun h => ?_, fun h hv => ?_⟩
    · rw [parse, parseType_bad ht (h.imp_left error.2)]
      exact ⟨rfl, rfl, rfl⟩
    · rw [parse, parseType_good ht hv ha (Bool.eq_false_iff.2 (h ∘ error.1))]
      exact ⟨hv, rfl⟩
  · have parse : f.position = .payload ∨ f.position = .afterMarker → parsed = parseData b f :=
      fun hp => parseByte_data hp hv ht
    refine ⟨fun hp => ⟨fun hk lo hi hl => ?_, fun hk h => ?_, fun hk h => ?_, fun hk h => ?_⟩,
      fun k hp hr => ⟨fun hk => ?_, fun hk h => ?_, fun hk h => ?_⟩⟩
    · exact (parse (.inl hp)).trans (parseData_marker hp hk lo hi hl)
    · exact (parse (.inl hp)).trans (parseData_control hp hk h)
    · exact (parse (.inl hp)).trans ((parseData_byte hp hk).trans (parseCopies_fits hn h))
    · exact (parse (.inl hp)).trans ((parseData_byte hp hk).trans (parseCopies_exceeds hn h))
    · exact (parse (.inr hp)).trans (parseData_unfinished hp hk)
    · exact (parse (.inr hp)).trans ((parseData_run hp hr hk).trans (parseCopies_fits hn h))
    · exact (parse (.inr hp)).trans ((parseData_run hp hr hk).trans (parseCopies_exceeds hn h))
  · have parse : parsed = parseOpen b f := parseByte_open (.inl hp) hv ht
    obtain ⟨first, second, third, fourth⟩ := withOpenValue_by_count b.data f
    refine ⟨fun hk => parse.trans (parseOpen_control hk),
      fun hk hc => ⟨fun hl => ?_, fun hl => ?_⟩, fun hk hc => ⟨fun hl => ?_, fun hl => ?_⟩,
      fun hk hc => ⟨fun a c t h hl ha hs htag hhigh => ?_, fun hl => ?_⟩, fun hk hc => ?_⟩
    · rw [parse, parseOpen_value hk hc (by decide) hl, first hc]
    · rw [parse, parseOpen_bad hk hc (.inl ⟨by decide, hl⟩), first hc]
      rfl
    · rw [parse, parseOpen_value hk hc (by decide) hl, second hc]
    · rw [parse, parseOpen_bad hk hc (.inl ⟨by decide, hl⟩), second hc]
      rfl
    · rw [parse, parseOpen_final hk hc hl, third hc, ha, hs, htag, hhigh]
      rfl
    · rw [parse, parseOpen_bad hk hc (.inr (.inl ⟨rfl, hl⟩)), third hc]
      rfl
    · rw [parse, parseOpen_bad hk hc (.inr (.inr rfl)), fourth hc]
      rfl
  · have parse : parsed = parseCancel b f := parseByte_cancel (.inl hp) hv ht
    refine ⟨fun hk => parse.trans (parseCancel_control hk),
      fun hk hc => ⟨fun a hl ha => ?_, fun hl => ?_⟩,
      fun hk hc => parse.trans (parseCancel_second hk hc)⟩
    · rw [parse, parseCancel_final hk hc hl, ha]
      rfl
    · exact parse.trans (parseCancel_unended hk hc hl)
  · exact (parseByte_payload hp).trans (parsePayload_bad hv)
  · simp [endVerdict, hv, ht, hn]
  · rcases h with h | h <;> simp [endVerdict, h]
end

section
/-! A DATA frame as a talker builds it, run coded or not, and the copies a listener hands on (R42, R43, R48, R49). -/

namespace Sys2Proof.Machine

open Sys2Proof

/-! ### Payload bytes on the bus and the bytes they stand for -/

/-- A sequence of bus bytes spells a sequence of stored bytes: a data byte is one copy, a run marker and a data byte are 3–66 copies (R42). LAST on a data byte changes nothing of what it spells. -/
inductive Spells : List BusByte → List Byte → Prop
  | nil : Spells [] []
  | byte (v : Byte) (last : Bool) {bus : List BusByte} {stored : List Byte}
      (h : Spells bus stored) : Spells ({ dataByte v with last := last } :: bus) (v :: stored)
  | run (v : Byte) (n : Nat) (last : Bool) (lo : 3 ≤ n) (hi : n ≤ 66) {bus : List BusByte}
      {stored : List Byte} (h : Spells bus stored) :
      Spells (runMarker n :: { dataByte v with last := last } :: bus)
        (List.replicate n v ++ stored)

/-- What two sequences spell one after the other. -/
theorem Spells.append {bus bus' : List BusByte} {stored stored' : List Byte}
    (h : Spells bus stored) (h' : Spells bus' stored') :
    Spells (bus ++ bus') (stored ++ stored') := by
  induction h with
  | nil => exact h'
  | byte v last _ ih => exact .byte v last ih
  | run v n last lo hi _ ih =>
    rw [List.append_assoc]
    exact .run v n last lo hi ih

/-- LAST is set in front of the last byte of nothing else. -/
theorem markLast_cons {rest : List BusByte} (h : rest ≠ []) (b : BusByte) :
    markLast (b :: rest) = b :: markLast rest := by
  cases rest with
  | nil => exact absurd rfl h
  | cons c more => rfl

/-- LAST on the last byte changes nothing of what a sequence spells. -/
theorem Spells.markLast {bus : List BusByte} {stored : List Byte} (h : Spells bus stored) :
    Spells (markLast bus) stored := by
  induction h with
  | nil => exact .nil
  | @byte v last bus stored h ih =>
    cases bus with
    | nil => exact .byte v true h
    | cons => exact .byte v last ih
  | @run v n last lo hi bus stored h ih =>
    cases bus with
    | nil => exact .run v n true lo hi h
    | cons => exact .run v n last lo hi ih

/-! ### The coding of a payload (R48, R49) -/

/-- A payload offered byte for byte spells itself. -/
theorem spells_plain (stored : List Byte) : Spells (stored.map dataByte) stored := by
  induction stored with
  | nil => exact .nil
  | cons v rest ih => exact .byte v false ih

/-- The remainder of a run, coded as a marker or as plain bytes, spells its copies. -/
theorem spells_remainder {n : Nat} (h : n ≤ 66) (v : Byte) :
    Spells (if n < 3 then List.replicate n (dataByte v) else [runMarker n, dataByte v])
      (List.replicate n v) := by
  split
  · rw [← List.map_replicate]
    exact spells_plain _
  · rw [← List.append_nil (List.replicate n v)]
    exact .run v n false (by omega) h .nil

/-- Whole pieces of 66 copies spell their copies. -/
theorem spells_pieces (v : Byte) (k : Nat) :
    Spells (List.replicate k [runMarker 66, dataByte v]).flatten (List.replicate (66 * k) v) := by
  induction k with
  | zero => exact .nil
  | succ k ih =>
    have copies : List.replicate (66 * (k + 1)) v =
        List.replicate 66 v ++ List.replicate (66 * k) v := by
      rw [← List.replicate_add, Nat.mul_succ, Nat.add_comm]
    rw [copies]
    exact .run v 66 false (by decide) (by decide) ih

/-- The coding of a run spells the run. -/
theorem spells_codeRun (r : Byte × Nat) : Spells (codeRun r) (List.replicate r.2 r.1) := by
  have pieces := (spells_pieces r.1 (r.2 / 66)).append
    (spells_remainder (n := r.2 % 66) (by omega) r.1)
  rwa [← List.replicate_add, Nat.div_add_mod] at pieces

/-- The payload of a DATA frame as it is offered spells the stored payload. -/
theorem spells_codePayload (compress : Bool) (stored : List Byte) :
    Spells (codePayload compress stored) stored := by
  have coded : ∀ runs : List (Byte × Nat),
      Spells (runs.flatMap codeRun) (runs.flatMap fun r => List.replicate r.2 r.1) := by
    intro runs
    induction runs with
    | nil => exact .nil
    | cons r rest ih => exact (spells_codeRun r).append ih
  cases compress with
  | false => exact spells_plain stored
  | true =>
    have h := coded (longestRuns stored)
    rwa [longestRuns_expand] at h

/-! ### The copies heard (R42, R43) -/

/-- The marker of a run tells its number of copies. -/
theorem runMarker_tells {n : Nat} (lo : 3 ≤ n) (hi : n ≤ 66) :
    0x80 ≤ (runMarker n).data ∧ (runMarker n).data ≤ 0xBF ∧
      (runMarker n).data.toNat - 0x80 + 3 = n := by
  have value : (runMarker n).data.toNat = 0x80 + (n - 3) := by
    simp only [runMarker, controlByte, byteOf, BitVec.toNat_ofNat]
    omega
  refine ⟨?_, ?_, by omega⟩
  · rw [BitVec.le_def, value]
    exact Nat.le_add_right _ _
  · rw [BitVec.le_def, value]
    show 0x80 + (n - 3) ≤ 0xBF
    omega

/-- A DATA payload with this many bytes heard, behind the marker of a run. -/
def markerHeard (f : FrameState) (n k : Nat) : FrameState :=
  { dataHeard f n with position := .afterMarker, runCount := some k }

/-- A GOOD DATA frame hears what is spelled, within the largest payload: the expanded length rises by the copies, and they are handed on in order. -/
theorem hear_spelled {number : StationNumber} {subscriptions : Vector (Option Policy) 16}
    {bus : List BusByte} {stored : List Byte} {f : FrameState} (h : Spells bus stored)
    (hv : f.verdict = some .good) (ht : f.type = some typeData) :
    ∀ n, n + stored.length ≤ 1024 →
      ∃ events, hear number subscriptions bus (dataHeard f n) =
          (dataHeard f (n + stored.length), events) ∧
        expandedPayload events = stored := by
  induction h with
  | nil => exact fun n _ => ⟨[], rfl, rfl⟩
  | @byte v last bus stored _ ih =>
    intro n hn
    rw [List.length_cons] at hn
    obtain ⟨events, heard, spelled⟩ := ih (n + 1) (by omega)
    have item : parseByte number subscriptions { dataByte v with last := last } (dataHeard f n) =
        (dataHeard f (n + 1), .copies v 1 last) :=
      (parseByte_data (f := dataHeard f n) (.inl rfl) hv ht).trans
        ((parseData_byte rfl rfl).trans (parseCopies_fits rfl (by omega)))
    refine ⟨.copies v 1 last :: events, ?_, by rw [expandedPayload, spelled]; rfl⟩
    rw [hear_cons item, heard, List.length_cons, Nat.add_assoc, Nat.add_comm 1]
  | @run v k last lo hi bus stored _ ih =>
    intro n hn
    rw [List.length_append, List.length_replicate] at hn
    obtain ⟨events, heard, spelled⟩ := ih (n + k) (by omega)
    obtain ⟨low, high, tells⟩ := runMarker_tells lo hi
    have marker : parseByte number subscriptions (runMarker k) (dataHeard f n) =
        (markerHeard f n k, .nothing) := by
      rw [parseByte_data (.inl rfl) (by exact hv) (by exact ht),
        parseData_marker rfl rfl low high rfl, tells]
      rfl
    have item : parseByte number subscriptions { dataByte v with last := last }
        (markerHeard f n k) = (dataHeard f (n + k), .copies v k last) :=
      (parseByte_data (f := markerHeard f n k) (.inr rfl) hv ht).trans
        ((parseData_run rfl rfl rfl).trans (parseCopies_fits rfl (by omega)))
    refine ⟨.nothing :: .copies v k last :: events, ?_,
      by simp [expandedPayload, spelled]⟩
    rw [hear_cons marker, hear_cons item, heard, List.length_append, List.length_replicate,
      Nat.add_assoc]

/-- Header byte 3 of a DATA frame is no error. -/
theorem typeInError_data (last : Bool) (f : FrameState) :
    typeInError { controlByte typeData with last := last } f = false := by
  simp [typeInError, controlByte, typeData, typeOpen, typeCancel, typeHello]

/-- The first three bytes of a DATA frame, and a payload behind them that LAST ends. -/
theorem buildFrame_payload (address source : Byte) {bus : List BusByte} (h : bus ≠ []) :
    buildFrame address source typeData bus =
      controlByte address :: controlByte source :: controlByte typeData :: markLast bus := by
  simp [buildFrame, markLast_cons, h]

end Sys2Proof.Machine

open Sys2Proof Sys2Proof.Machine

/-- Settles O43: the header is heard without error, and the payload as it is offered spells the stored bytes, which is what a GOOD DATA frame hears. -/
theorem builtDataFrameIsHeardWhole : Obligations.BuiltDataFrameIsHeardWhole := by
  intro number subscriptions address source compress payload ha hs hlen
  have spelled := spells_codePayload compress payload
  by_cases hbus : codePayload compress payload = []
  · rw [hbus] at spelled ⊢
    cases spelled
    have built : buildFrame address source typeData [] =
        [controlByte address, controlByte source, { controlByte typeData with last := true }] := rfl
    rw [built, hear_header ha hs (typeInError_data true _)]
    exact ⟨_, _, rfl, rfl, rfl, rfl, rfl, rfl, rfl, rfl⟩
  · have start : headerHeard number subscriptions address source (controlByte typeData) =
        dataHeard (headerHeard number subscriptions address source (controlByte typeData)) 0 := rfl
    obtain ⟨events, heard, copies⟩ := hear_spelled (number := number)
      (subscriptions := subscriptions)
      (f := headerHeard number subscriptions address source (controlByte typeData))
      spelled.markLast rfl rfl 0 (by omega)
    rw [buildFrame_payload address source hbus, hear_header ha hs
      (by exact typeInError_data false _), start, heard]
    refine ⟨_, _, rfl, rfl, rfl, rfl, rfl, rfl, ?_, ?_⟩
    · simp [dataHeard]
    · exact copies
end

section
/-! The readback of the byte on offer (R16, R51, R52). -/

namespace Sys2Proof.Machine

open Sys2Proof

/-- What READBACK_COMPARE senses; at the sensed assertion of OFFER it is also the observed byte (R2). -/
def readBack (b : BusByte) (s : State) : State :=
  { s with
    line.observed := if s.line.sense.offer then s.line.observed else some b
    line.sense.offer := true
    line.sense.data := b.data
    line.sense.kind := b.kind
    line.sense.last := b.last }

/-- READBACK_COMPARE in OFFERED: the lines are sensed, and a difference is a clash (R51). -/
theorem readbackCompare_offered {driven : BusByte} {s : State} (hr : s.hs.role = .talker .offered)
    (hc : s.fe.comparator = some driven) (b : BusByte) :
    readbackCompare b s = if b = driven then readBack b s else clashFound (readBack b s) := by
  simp [readbackCompare, hr, hc, readBack]

/-- The first clash of an attempt, outside a soft reset and on a line free of breaks: MALFORMED, CLASH handed, the entry into FAULTED awaited, the pulse begun (R51, R52). -/
theorem clashFound_first {s : State} (hh : s.tm.handed = none)
    (hres : s.ctl.resetInProgress = false) (hb : s.line.sense.brk = false)
    (hg : s.line.guard = none) (hp : s.line.framePulse = none) :
    clashFound s = { s with
      fe.frame.verdict := some .malformed
      tm.handed := some .clash
      ctl.pendingFault := some .clash
      line.framePulse := some 0
      line.drive.brk := true } := by
  simp only [clashFound]
  rw [handOutcome_first (by exact hh),
    requestFrameBreak_begins _ (by exact hb) (by exact hg) (by exact hp),
    awaitFault_eq (by exact hres)]

end Sys2Proof.Machine

open Sys2Proof Sys2Proof.Machine

/-- Settles O42: the byte read back is sensed, then it is equal or a clash. -/
theorem readbackFindsAClash : Obligations.ReadbackFindsAClash := by
  intro b driven s hb hr hc hres
  have compare := readbackCompare_offered hr hc b
  refine ⟨fun heq => ?_, fun hne hh hbrk hg hp => ?_⟩ <;>
    refine nextIs_of_busChange rfl hb (compare.trans ?_)
  · exact if_pos heq
  · rw [if_neg hne, clashFound_first (by exact hh) (by exact hres) (by exact hbrk) (by exact hg)
      (by exact hp)]
    rfl
end

section
/-! The copies of a taken byte in packet memory (R87, R91, R128–R132). -/

namespace Sys2Proof.Machine

open Sys2Proof

/-! ### Storing (R128–R131) -/

/-- With its copies stored, the receive manager is in STORING and holds none back. -/
theorem storeCopies_zero (v : Byte) (last : Bool) (s : State) :
    storeCopies v last 0 s = { s with rm.state := .storing, rm.held := none } := rfl

/-- A copy with room in the last block is stored at the next position (R128). -/
theorem storeCopies_room {c : Construction} {s : State} (hc : s.rm.construction = some c)
    (hroom : c.keptLength < 64 * c.blocks.length) (v : Byte) (last : Bool) (n : Nat) :
    storeCopies v last (n + 1) s = storeCopies v last n (putCopy v c s) := by
  simp [storeCopies, hc, hroom]

/-- A copy without room takes the block at the head of the pool (R91). -/
theorem storeCopies_block {b : Nat} {rest : List Nat} {c : Construction} {s : State}
    (hc : s.rm.construction = some c) (hfull : c.keptLength = 64 * c.blocks.length)
    (hpool : s.mem.pool = b :: rest) (v : Byte) (last : Bool) (n : Nat) :
    storeCopies v last (n + 1) s = storeCopies v last n
      (putCopy v { c with blocks := c.blocks ++ [b] } { s with mem.pool := rest }) := by
  simp [storeCopies, hc, hfull, hpool]

/-- A copy without room, with the pool empty, is refused its block (R129, R131). -/
theorem storeCopies_refused {c : Construction} {s : State} (hc : s.rm.construction = some c)
    (hfull : c.keptLength = 64 * c.blocks.length) (hpool : s.mem.pool = []) (v : Byte)
    (last : Bool) (n : Nat) :
    storeCopies v last (n + 1) s = requestRefused v (n + 1) last c s := by
  simp [storeCopies, hc, hfull, hpool]

/-- In STORING, with room in the last block, one copy handed on is stored, and counted in both lengths (R128). -/
theorem receiveCopies_room {c : Construction} {s : State} (hst : s.rm.state = .storing)
    (hc : s.rm.construction = some c) (hroom : c.keptLength < 64 * c.blocks.length) (v : Byte)
    (last : Bool) :
    receiveCopies v 1 last s = { s with
      mem.cells := writePayload s.mem.cells c.blocks c.keptLength v
      rm.held := none
      rm.construction := some { c with
        keptLength := c.keptLength + 1, fullLength := c.fullLength + 1 } } := by
  have counted : (countFull 1 s).rm.construction =
      some { c with fullLength := c.fullLength + 1 } := by
    simp [countFull, hc]
  simp only [receiveCopies, hst]
  rw [storeCopies_room counted hroom, storeCopies_zero]
  simp [putCopy, countFull, hst]

/-- The first byte behind full blocks lies at the start of the block that joins them (R87). -/
theorem payloadAddress_next (blocks : List Nat) (b : Nat) :
    payloadAddress (blocks ++ [b]) (64 * blocks.length) = some (64 * b) := by
  simp [payloadAddress]

/-- A byte of a payload is placed at its address. -/
theorem writePayload_at {a i : Nat} {blocks : List Nat} (h : payloadAddress blocks i = some a)
    (cells : List Host.Cell) (v : Byte) :
    writePayload cells blocks i v = Memory.write cells a v := by
  simp [writePayload, h]

/-! ### A byte at a listener, and its event (R2, R9, R15, R40) -/

/-- A byte sampled and parsed at a listener. -/
theorem byteObserved_eq {b : BusByte} {f : FrameState} {e : FrameEvent} {s : State}
    (hparse : parseByte s.ctl.number s.ctl.subscriptions b s.fe.frame = (f, e)) :
    byteObserved b s = { s with
      line.sense.offer := true
      line.sense.data := b.data
      line.sense.kind := b.kind
      line.sense.last := b.last
      line.observed := some b
      line.heldFrame := s.line.heldFrame.filter (· != .silence)
      hs.silence := s.hs.silence.map (fun _ => 0)
      fe.frame := f } := by
  simp [byteObserved, hparse, sampleOffer, restartSilence]

/-- A byte taken is a byte observed, with the latch and the answer on WAIT and PEND. -/
theorem byteTaken_eq (b : BusByte) (s : State) :
    byteTaken b s = { byteObserved b s with
      line.drive.wait := true
      line.drive.pend := false
      hs.role := .participant .taken
      hs.latch := some { byte := b, position := s.fe.frame.position } } := rfl

/-- TAKE in READY hands the event of its byte on. -/
theorem take_hands {b : BusByte} {f : FrameState} {e : FrameEvent} {s : State}
    (hparse : parseByte s.ctl.number s.ctl.subscriptions b s.fe.frame = (f, e))
    (hr : s.hs.role = .participant .ready)
    (hd : isDuplicateSource s.ctl.number b s.fe.frame = false) :
    take b s = handTaken e (byteTaken b s) := by
  rw [take_ready hr hd, hparse]

/-- OBSERVE at a bystander hands the event of its byte on. -/
theorem observe_hands {b : BusByte} {f : FrameState} {e : FrameEvent} {s : State}
    (hparse : parseByte s.ctl.number s.ctl.subscriptions b s.fe.frame = (f, e))
    (hr : s.hs.role = .bystander) : observe b s = handObserved e (byteObserved b s) := by
  rw [observe_aside (.inl hr), hparse]

/-! ### The byte of a DATA payload at the frame and at the receive manager (R44, R128, R132) -/

/-- No byte of a payload decides anew whether the frame is addressed to the station (R38). -/
theorem parsePayload_addressed (b : BusByte) (f : FrameState) :
    (parsePayload b f).1.addressed = f.addressed := by
  simp only [parsePayload, parseData, parseCopies, parseOpen, parseCancel, FrameState.spoiled,
    FrameState.withOpenValue, FrameState.withCancelValue]
  repeat' split
  all_goals rfl

/-- No byte of a payload is a duplicate SOURCE (R53). -/
theorem isDuplicateSource_payload {f : FrameState}
    (hp : f.position = .payload ∨ f.position = .afterMarker) (number : StationNumber)
    (b : BusByte) : isDuplicateSource number b f = false := by
  rcases hp with hp | hp <;> simp [isDuplicateSource, hp]

/-- A malformed payload ends the storing of a record, with its lengths and blocks as they stand (R132). -/
theorem receiveMalformed_record {c : Construction} {s : State}
    (h : s.rm.state = .storing ∨ s.rm.state = .truncated) (hc : s.rm.construction = some c) :
    receiveMalformed s = { s with
      rm.state := .malformed, rm.construction := some { c with status := .malformed } } := by
  rcases h with h | h <;> simp [receiveMalformed, h, hc]

/-- A malformed payload of a frame that is dropped changes nothing (R127). -/
theorem receiveMalformed_dropping {s : State} (h : s.rm.state = .dropping) :
    receiveMalformed s = s := by
  simp [receiveMalformed, h]

/-- TAKE in READY of a payload byte at which an addressed DATA frame is malformed. -/
theorem take_malformed {b : BusByte} {f : FrameState} {s : State}
    (hr : s.hs.role = .participant .ready)
    (hp : s.fe.frame.position = .payload ∨ s.fe.frame.position = .afterMarker)
    (hparse : parseByte s.ctl.number s.ctl.subscriptions b s.fe.frame = (f, .malformed))
    (ha : s.fe.frame.addressed = some true) :
    take b s = receiveMalformed (byteTaken b s) := by
  have addressed : f.addressed = some true := by
    have kept := parsePayload_addressed b s.fe.frame
    rwa [← parseByte_payload hp, hparse, ha] at kept
  have addressed' : (byteTaken b s).fe.frame.addressed = some true := by
    simp [hparse, addressed]
  rw [take_hands hparse hr (isDuplicateSource_payload hp _ _)]
  exact if_pos addressed'

/-- A data byte outside a run in an addressed DATA frame is handed to the receive manager as one copy. -/
theorem take_copy {v : Byte} {last : Bool} {n : Nat} {s : State}
    (hr : s.hs.role = .participant .ready) (hp : s.fe.frame.position = .payload)
    (hv : s.fe.frame.verdict = some .good) (ht : s.fe.frame.type = some typeData)
    (ha : s.fe.frame.addressed = some true) (hn : s.fe.frame.expandedLength = some n)
    (hlen : n < 1024) :
    take { data := v, kind := false, last := last } s =
      receiveCopies v 1 last (byteTaken { data := v, kind := false, last := last } s) ∧
    parseByte s.ctl.number s.ctl.subscriptions { data := v, kind := false, last := last }
      s.fe.frame = (dataHeard s.fe.frame (n + 1), .copies v 1 last) := by
  have heard : parseByte s.ctl.number s.ctl.subscriptions
      { data := v, kind := false, last := last } s.fe.frame =
        (dataHeard s.fe.frame (n + 1), .copies v 1 last) :=
    (parseByte_data (.inl hp) hv ht).trans
      ((parseData_byte hp rfl).trans (parseCopies_fits hn hlen))
  have addressed : (byteTaken { data := v, kind := false, last := last } s).fe.frame.addressed =
      some true := by
    simp [heard, dataHeard, ha]
  rw [take_hands heard hr (isDuplicateSource_payload (.inl hp) _ _)]
  exact ⟨if_pos addressed, heard⟩

end Sys2Proof.Machine

open Sys2Proof Sys2Proof.Machine

/-- Settles O45: the byte taken is handed on by what it is in its payload, and each copy is stored by the room it finds. -/
theorem copiesAreStored : Obligations.CopiesAreStored := by
  refine ⟨fun v last n a c s hb hwf hr hp hv ht ha hn hlen hst hc hroom haddr => ?_,
    fun v last n c s hc hfull => ⟨fun b rest hpool => ?_,
      fun hpool => ⟨fun hs hl => ?_, fun h => ?_⟩⟩,
    fun b f s hb hr hp hparse ht ha => ⟨fun c hst hc => ?_, fun hst => ?_⟩⟩
  · refine ⟨Memory.write s.mem.cells a v, Memory.read_write_self hwf,
      fun x hx => Memory.read_write_other hx _, nextIs_of_busChange rfl hb ?_⟩
    obtain ⟨taken, heard⟩ := take_copy (last := last) (v := v) hr hp hv ht ha hn hlen
    rw [taken, receiveCopies_room (by exact hst) (by exact hc) hroom, writePayload_at haddr,
      byteTaken_eq, byteObserved_eq heard]
    simp only [dataHeard, ← hp]
  · rw [storeCopies_block hc hfull hpool, storeCopies_zero]
    simp only [putCopy]
    rw [hfull, writePayload_at (payloadAddress_next c.blocks b)]
  · rw [storeCopies_refused hc hfull hpool, requestRefused, if_pos ⟨hs, hl⟩]
  · have lenient : ¬ (s.rm.policy = some .strict ∧ last = false) := by
      rintro ⟨hs, rfl⟩
      simp [hs] at h
    rw [storeCopies_refused hc hfull hpool, requestRefused, if_neg lenient]
  · refine nextIs_of_busChange rfl hb ((take_malformed hr hp hparse ha).trans ?_)
    rw [receiveMalformed_record (by exact hst) (by exact hc), byteTaken_eq,
      byteObserved_eq hparse]
  · refine nextIs_of_busChange rfl hb ((take_malformed hr hp hparse ha).trans ?_)
    rw [receiveMalformed_dropping (by exact hst), byteTaken_eq, byteObserved_eq hparse]
end

section
/-! OWN sensed at a station other than its talker: the frame begins with its assertion, and its release abandons the frame (R6, R12, R15, R27, R33, R54). -/

namespace Sys2Proof.Machine

open Sys2Proof

/-! ### The assertion (R6, R15, R27, R33) -/

/-- OWN is sensed asserted. -/
def ownHeard (s : State) : State := { s with line.sense.own := true }

/-- A frame begins: its state is started, and the silence timer runs from zero, or is stopped in NONE. -/
def frameBegun (s : State) : State :=
  { s with
    fe.frame := FrameState.started .participant
    hs.window := none
    hs.silence := if s.hs.role = .none then none else some 0
    line.heldFrame := s.line.heldFrame.filter (· != .silence) }

/-- What the arbiter does at the assertion: a bidder has lost, STANDBY is left, OUTSIDE stays (R27, log 14). -/
def ArbiterYields (s t : State) : Prop :=
  (s.arb.phase = .outside ∧ t = s) ∨ (s.arb.phase = .standby ∧ t = enterOutside s) ∨
    (s.arb.phase = .bidding ∧ t = giveUpBid s)

/-- At a participating station without a frame in progress the arbiter yields and the frame begins. -/
theorem ownAssertionSensed_begins {s t : State} (hp : participates s = true)
    (hf : frameInProgress s = false) (h : ArbiterYields (ownHeard s) t) :
    ownAssertionSensed s = frameBegun t := by
  have begins : ¬ ((frameInProgress (ownHeard s) || !participates (ownHeard s)) = true) := by
    rw [show frameInProgress (ownHeard s) = false from hf,
      show participates (ownHeard s) = true from hp]
    decide
  simp only [ownAssertionSensed]
  rw [if_neg (by exact begins)]
  rcases h with ⟨ha, rfl⟩ | ⟨ha, rfl⟩ | ⟨ha, rfl⟩ <;>
    · have ha' : s.arb.phase = _ := ha
      simp only [ha']
      rfl

/-- A frame in progress goes on, and a station that does not participate begins none. -/
theorem ownAssertionSensed_goesOn {s : State}
    (h : participates s = false ∨ frameInProgress s = true) :
    ownAssertionSensed s = ownHeard s := by
  have goesOn : (frameInProgress (ownHeard s) || !participates (ownHeard s)) = true := by
    rcases h with h | h
    · rw [show participates (ownHeard s) = false from h]
      simp
    · rw [show frameInProgress (ownHeard s) = true from h]
      rfl
  exact if_pos goesOn

/-! ### The release (R12, R15, R54) -/

/-- OWN is sensed released, and REQ at its level. -/
def ownGone (req : Bool) (s : State) : State :=
  { s with line.sense.own := false, line.sense.req := req }

/-- With REQ released too the silence timer stops (R15). -/
def silenceByReq (req : Bool) (s : State) : State :=
  { s with
    line.heldFrame := if req then s.line.heldFrame else s.line.heldFrame.filter (· != .silence)
    hs.silence := if req then s.hs.silence else none }

/-- OWN_RELEASE_SENSED: the levels, the frame in progress, the silence timer. -/
theorem ownReleaseSensed_eq (req : Bool) (s : State) :
    ownReleaseSensed req s = silenceByReq req (ownReleased (ownGone req s)) := by
  cases req <;> rfl

/-- Without a frame in progress, and at the talker, the release abandons nothing. -/
theorem ownReleased_idle {s : State} (h : s.fe.frame.position = .none ∨ isTalker s = true) :
    ownReleased s = s := by
  rcases h with h | h <;> simp [ownReleased, h]

/-- The frame in progress is abandoned at a participant or bystander, which rests again (R12). -/
theorem ownReleased_listener {s : State} (hp : s.fe.frame.position ≠ .none)
    (hr : s.hs.role = .bystander ∨ ∃ p, s.hs.role = .participant p) :
    ownReleased s = restAsParticipant (endFrameState (handAbandonment s)) := by
  rcases hr with hr | ⟨p, hr⟩ <;>
    simp [ownReleased, abandonFrame, endFrameState, hp, hr, isTalker]

/-- The frame in progress is abandoned at a station in NONE, which stays there. -/
theorem ownReleased_none {s : State} (hp : s.fe.frame.position ≠ .none) (hr : s.hs.role = .none) :
    ownReleased s = endFrameState (handAbandonment s) := by
  simp [ownReleased, abandonFrame, endFrameState, hp, hr, isTalker]

/-- An abandonment reads and writes nothing of the levels of OWN and REQ. -/
theorem frameAbandoned_ownGone (req : Bool) (s : State) :
    frameAbandoned (ownGone req s) = ownGone req (frameAbandoned s) := by
  obtain ⟨_, _, _, _, _, _, _, _, _, shape⟩ := frameAbandoned_shape s
  rw [shape s rfl rfl rfl rfl rfl rfl rfl rfl,
    shape (ownGone req s) rfl rfl rfl rfl rfl rfl rfl rfl]
  rfl

end Sys2Proof.Machine

open Sys2Proof Sys2Proof.Machine

/-- Settles O36: the assertion by what the arbiter was doing, the release by the role; what an abandonment writes beside the levels is `frameAbandoned`'s. -/
theorem ownBeginsAndAbandonsTheFrame : Obligations.OwnBeginsAndAbandonsTheFrame := by
  refine ⟨fun s hb => ?_, fun req s hb => ?_⟩
  · intro begun outside
    refine ⟨fun hp hf => ?_, fun h => nextIs_ownAssertionSensed hb (ownAssertionSensed_goesOn h)⟩
    have begins {t : State} (h : ArbiterYields (ownHeard s) t) :
        NextIs .ownAssertionSensed s (frameBegun t) :=
      nextIs_ownAssertionSensed hb (ownAssertionSensed_begins hp hf h)
    refine ⟨fun ha => begins (.inl ⟨ha, rfl⟩), fun ha => begins (.inr (.inl ⟨ha, rfl⟩)),
      fun ha => ⟨fun i hsel => ?_, fun f hs hf => ?_⟩⟩
    · have lost := begins (.inr (.inr ⟨ha, rfl⟩))
      rwa [giveUpBid_descriptor (s := ownHeard s) hsel] at lost
    · have lost := begins (.inr (.inr ⟨ha, rfl⟩))
      rwa [giveUpBid_slot (s := ownHeard s) hs hf] at lost
  · intro released
    refine ⟨fun h => nextIs_ownReleaseSensed hb ?_, fun hp ha => ?_⟩
    · rw [ownReleaseSensed_eq, ownReleased_idle (s := ownGone req s) h]
      rfl
    · intro finished
      have abandons : handAbandonment (ownGone req s) = ownGone req (frameAbandoned s) :=
        (handAbandonment_eq (by exact ha)).trans (frameAbandoned_ownGone req s)
      obtain ⟨trg, slot, rm, pool, view, noted, -, -, -, writes⟩ := frameAbandoned_writes s
      refine ⟨fun p hr => nextIs_ownReleaseSensed hb ?_, fun hr => nextIs_ownReleaseSensed hb ?_⟩
      · rw [ownReleaseSensed_eq, ownReleased_listener (s := ownGone req s) hp
          (hr.symm.imp_right (⟨p, ·⟩)), abandons]
        simp only [finished, writes]
        rfl
      · rw [ownReleaseSensed_eq, ownReleased_none (s := ownGone req s) hp hr, abandons]
        simp only [finished, writes]
        rfl
end

section
/-! A CANCEL at the view: freeze, CANCELLING, the close, and the freeze lifted (R40, R41, R70–R73, R76, R84). -/

namespace Sys2Proof.Machine

open Sys2Proof

/-! ### Header and final byte (R70, R71) -/

/-- The open views are WAITING and ARMED. -/
theorem viewOpen_iff {v : View} : viewOpen v = true ↔ v.state = .waiting ∨ v.state = .armed := by
  simp [viewOpen]

/-- The header of a CANCEL freezes an open view of its group (R70). -/
theorem cancelHeader_freezes {group : Byte} {s : State} (hv : viewOpen s.rdv.view = true)
    (hg : s.rdv.view.group = some group) :
    cancelHeader group s = { s with rdv.view.freeze := true } := by
  simp [cancelHeader, hv, hg, setView]

/-- The header of a CANCEL of another group changes nothing. -/
theorem cancelHeader_other {group other : Byte} {s : State}
    (hg : s.rdv.view.group = some group) (h : other ≠ group) : cancelHeader other s = s := by
  simp [cancelHeader, hg, h.symm]

/-- The final byte of a CANCEL puts its open view into CANCELLING (R71). -/
theorem cancelFinal_elsewhere {group tag : Byte} {s : State} (hv : viewOpen s.rdv.view = true)
    (hf : s.rdv.view.fire = .clear) (hg : s.rdv.view.group = some group)
    (ht : s.rdv.view.tag = some tag) :
    cancelFinal false group tag s = { s with rdv.view.state := .cancelling } := by
  simp [cancelFinal, viewMatches, hv, hf, hg, ht, setView]

/-- At the talker the view notes that the CANCEL was sent here (R71). -/
theorem cancelFinal_atTalker {group tag : Byte} {s : State} (hv : viewOpen s.rdv.view = true)
    (hf : s.rdv.view.fire = .clear) (hg : s.rdv.view.group = some group)
    (ht : s.rdv.view.tag = some tag) :
    cancelFinal true group tag s =
      { s with rdv.view.state := .cancelling, rdv.view.cancelSentHere := true } := by
  simp [cancelFinal, viewMatches, hv, hf, hg, ht, setView]

/-- With a fire pending the final byte of a CANCEL changes nothing. -/
theorem cancelFinal_firing {s : State} (hf : s.rdv.view.fire ≠ .clear) (atTalker : Bool)
    (group tag : Byte) : cancelFinal atTalker group tag s = s := by
  simp [cancelFinal, hf]

/-! ### A freeze lifted (R73, R76) -/

/-- A view with no pending-arm to apply stays as it is. -/
theorem applyPendingArm_without {s : State}
    (h : s.rdv.view.state = .waiting → s.rdv.view.pendingArm = false) : applyPendingArm s = s := by
  refine if_neg ?_
  rintro ⟨hw, hp⟩
  rw [h hw] at hp
  cases hp

/-- Outside a soft reset a pending-arm arms a WAITING view and releases TRG (R73). -/
theorem applyPendingArm_arms {s : State} (hw : s.rdv.view.state = .waiting)
    (hp : s.rdv.view.pendingArm = true) (hres : s.ctl.resetInProgress = false) :
    applyPendingArm s = { s with
      line.drive.trg := false, rdv.view.state := .armed, rdv.view.pendingArm := false } := by
  simp [applyPendingArm, hw, hp, releaseTrg_eq hres, setView]

/-- Without an expiry in CANCELLING no automatic CANCEL is placed. -/
theorem placeDeferredCancel_without {s : State} (h : s.rdv.view.expiredCancelling = false) :
    placeDeferredCancel s = s := by
  simp [placeDeferredCancel, h]

/-- Only a view that is WAITING, ARMED or CANCELLING has a freeze to lift. -/
theorem liftFreeze_without {s : State} (h : s.rdv.view.state = .none ∨
    s.rdv.view.state = .provisional ∨ s.rdv.view.state = .observing) : liftFreeze s = s := by
  rcases h with h | h | h <;> simp [liftFreeze, viewReturned, viewOpen, h]

/-- Without an expiry in CANCELLING the view returns, and a pending-arm is applied. -/
theorem liftFreeze_unexpired {s : State}
    (ho : viewOpen (viewReturned s.line.drive.trg s.rdv.view) = true)
    (he : s.rdv.view.expiredCancelling = false) :
    liftFreeze s = applyPendingArm
      (setView { viewReturned s.line.drive.trg s.rdv.view with freeze := false } s) := by
  have kept : (viewReturned s.line.drive.trg s.rdv.view).expiredCancelling = false := by
    simp only [viewReturned]
    split <;> exact he
  obtain ⟨trg, st, pa, moved, -⟩ := applyPendingArm_moves
    (setView { viewReturned s.line.drive.trg s.rdv.view with freeze := false } s)
  simp only [liftFreeze, ho, if_true]
  exact placeDeferredCancel_without (by rw [moved]; exact kept)

/-- An open view stays itself where a CANCELLING one returns. -/
theorem viewReturned_open {v : View} (h : viewOpen v = true) (trg : Bool) :
    viewReturned trg v = v := by
  rcases viewOpen_iff.1 h with h | h <;> simp [viewReturned, h]

/-- The freeze of an open view with no pending-arm to apply is lifted and no more. -/
theorem liftFreeze_open {s : State} (he : s.rdv.view.expiredCancelling = false)
    (h : s.rdv.view.state = .armed ∨
      (s.rdv.view.state = .waiting ∧ s.rdv.view.pendingArm = false)) :
    liftFreeze s = { s with rdv.view.freeze := false } := by
  have ho : viewOpen s.rdv.view = true := viewOpen_iff.2 (h.symm.imp_left And.left)
  have same := viewReturned_open ho s.line.drive.trg
  rw [liftFreeze_unexpired (by rw [same]; exact ho) he, same, applyPendingArm_without]
  · rfl
  · intro hw
    rcases h with h | h
    · exact absurd (h.symm.trans hw) (by decide)
    · exact h.2

/-- The freeze of a WAITING view lifted, its pending-arm is applied. -/
theorem liftFreeze_arms {s : State} (he : s.rdv.view.expiredCancelling = false)
    (hw : s.rdv.view.state = .waiting) (hp : s.rdv.view.pendingArm = true)
    (hres : s.ctl.resetInProgress = false) :
    liftFreeze s = { s with
      line.drive.trg := false
      rdv.view.state := .armed
      rdv.view.freeze := false
      rdv.view.pendingArm := false } := by
  have ho : viewOpen s.rdv.view = true := viewOpen_iff.2 (.inl hw)
  have same := viewReturned_open ho s.line.drive.trg
  rw [liftFreeze_unexpired (by rw [same]; exact ho) he, same,
    applyPendingArm_arms (by exact hw) (by exact hp) (by exact hres)]
  rfl

/-- A CANCELLING view returns to WAITING if it drives TRG, else to ARMED, with no pending-arm to apply in WAITING (R73). -/
theorem liftFreeze_returns {s : State} (he : s.rdv.view.expiredCancelling = false)
    (hv : s.rdv.view.state = .cancelling)
    (h : s.line.drive.trg = true → s.rdv.view.pendingArm = false) :
    liftFreeze s = { s with
      rdv.view.state := if s.line.drive.trg then .waiting else .armed
      rdv.view.freeze := false
      rdv.view.cancelSentHere := false } := by
  have returned : viewReturned s.line.drive.trg s.rdv.view = { s.rdv.view with
      state := if s.line.drive.trg then .waiting else .armed, cancelSentHere := false } := by
    simp [viewReturned, hv]
  rw [liftFreeze_unexpired _ he, returned, applyPendingArm_without]
  · rfl
  · cases ht : s.line.drive.trg with
    | false => simp [setView]
    | true => exact fun _ => h ht
  · rw [returned]
    cases s.line.drive.trg <;> rfl

/-- A CANCELLING view in which the deadline expired returns to WAITING, and its automatic CANCEL waits in the EMPTY slot (R73, R76). -/
theorem liftFreeze_places {group tag : Byte} {s : State} (hv : s.rdv.view.state = .cancelling)
    (hg : s.rdv.view.group = some group) (ht : s.rdv.view.tag = some tag)
    (htrg : s.line.drive.trg = true) (hp : s.rdv.view.pendingArm = false)
    (he : s.rdv.view.expiredCancelling = true) (hs : s.tm.slot = none)
    (ha : s.arb.phase = .outside) :
    liftFreeze s = { s with
      rdv.view.state := .waiting
      rdv.view.freeze := false
      rdv.view.cancelSentHere := false
      rdv.view.expiredCancelling := false
      tm.slot := some
        { state := .queued, kind := .cancelFrame group tag, attempts := 0,
          removal := false } } := by
  rw [liftFreeze_eq (by rw [ha]; decide), if_pos (.inr (.inr hv))]
  simp [hv, hg, ht, htrg, hp, he, hs]
  rw [← htrg]

/-! ### The completion of a CANCEL (R72, R73, R84) -/

/-- A CANCEL with an error or without its payload does not end GOOD (R46). -/
theorem endVerdict_cancel_bad {f : FrameState} (ht : f.type = some typeCancel)
    (h : f.verdict ≠ some .good ∨ f.payloadCount = some 0) : endVerdict f ≠ some .good := by
  by_cases hv : f.verdict = some .good
  · have hc := h.resolve_left (absurd hv)
    simp [endVerdict, hv, ht, hc]
  · simp [endVerdict, hv]

/-- A well-formed CANCEL completes at the view. -/
theorem rendezvousCompletion_cancel {f : FrameState} (ht : f.type = some typeCancel)
    (h : endVerdict f = some .good) (s : State) :
    rendezvousCompletion f s = cancelCompletion (f.address.getD 0) (f.tag.getD 0) s := by
  simp [rendezvousCompletion, ht, h, typeCancel, typeOpen]

/-- A malformed CANCEL lifts the freeze. -/
theorem rendezvousCompletion_cancel_bad {f : FrameState} (ht : f.type = some typeCancel)
    (h : endVerdict f ≠ some .good) (s : State) : rendezvousCompletion f s = liftFreeze s := by
  simp [rendezvousCompletion, ht, h, typeCancel, typeOpen]

/-- At an open view every CANCEL completes by lifting the freeze. -/
theorem rendezvousCompletion_cancel_open {f : FrameState} {s : State}
    (ht : f.type = some typeCancel) (hv : viewOpen s.rdv.view = true) :
    rendezvousCompletion f s = liftFreeze s := by
  by_cases h : endVerdict f = some .good
  · rw [rendezvousCompletion_cancel ht h]
    rcases viewOpen_iff.1 hv with hv | hv <;> simp [cancelCompletion, hv]
  · exact rendezvousCompletion_cancel_bad ht h s

/-- At a view in NONE or PROVISIONAL a CANCEL completes without effect. -/
theorem rendezvousCompletion_cancel_none {f : FrameState} {s : State}
    (ht : f.type = some typeCancel)
    (hv : s.rdv.view.state = .none ∨ s.rdv.view.state = .provisional) :
    rendezvousCompletion f s = s := by
  by_cases h : endVerdict f = some .good
  · rw [rendezvousCompletion_cancel ht h]
    rcases hv with hv | hv <;> simp [cancelCompletion, hv]
  · rw [rendezvousCompletion_cancel_bad ht h, liftFreeze_without (hv.imp_right .inl)]

/-- A well-formed CANCEL ends an OBSERVING view that it matches, or whose tag is not known (R84). -/
theorem cancelCompletion_observing {address tag : Byte} {s : State}
    (hv : s.rdv.view.state = .observing) :
    cancelCompletion address tag s =
      if s.rdv.view.tagKnown = false ∨
          (s.rdv.view.group = some address ∧ s.rdv.view.tag = some tag) then
        { s with rdv.view := View.absent }
      else s := by
  simp [cancelCompletion, hv, viewMatches, setView]

/-! ### The end of the frame at a listener (R11, R12) -/

/-- A frame has ended at a participant or bystander, which rests in READY. -/
def frameEnded (s : State) : State :=
  { s with
    line.drive.pend := s.line.drive.pend || s.hs.role == .bystander
    line.drive.wait := false
    hs.window := none
    hs.role := .participant .ready
    fe.frame := FrameState.absent }

/-- COMPLETION_WINDOW_END at a listener with nothing in reception, for a frame that is not DATA: the rendezvous unit gets the completion, and the listener rests. -/
theorem completionWindowEnd_listener {s u : State} (hw : s.hs.window ≠ none)
    (hr : (s.hs.role = .participant .preparing ∧ s.line.sense.offer = false) ∨
      s.hs.role = .bystander)
    (hi : s.rm.state = .idle) (ht : s.fe.frame.type ≠ some typeData)
    (h : rendezvousCompletion s.fe.frame s = u)
    (ho : u.line.sense.offer = s.line.sense.offer) :
    completionWindowEnd s = frameEnded u := by
  obtain ⟨hhs, hrm⟩ : u.hs = s.hs ∧ u.rm = s.rm := by
    rw [← h]
    exact ⟨by simp, by simp⟩
  have completes : completionWindowEnd s = completeElsewhere s := by
    rcases hr with ⟨hr, -⟩ | hr <;>
      simp [completionWindowEnd, Option.isNone_iff_eq_none, hw, hr]
  have handed : handCompletion s = u := by
    simp [handCompletion, ht, h]
  rw [completes, completeElsewhere, handed]
  rcases hr with ⟨hr, hoffer⟩ | hr
  · have role : (endFrameState u).hs.role = .participant .preparing := by
      simpa [endFrameState, hhs] using hr
    have ready : isReady (endFrameState u) = true := by
      simp [isReady, receptionWaits, endFrameState, hrm, hi, FrameState.absent]
    simp only [role]
    rw [becomeReady_readies role ready (ho.trans hoffer)]
    simp [endFrameState, frameEnded, hhs, hr]
  · have role : (endFrameState u).hs.role = .bystander := by
      simpa [endFrameState, hhs] using hr
    simp only [role]
    simp [endFrameState, restAsParticipant, frameEnded, hhs, hr]

/-- The next state at the end of that window. -/
theorem nextIs_listenerRests {s u : State} (hb : OnBus s) (hw : s.hs.window ≠ none)
    (hr : (s.hs.role = .participant .preparing ∧ s.line.sense.offer = false) ∨
      s.hs.role = .bystander)
    (hi : s.rm.state = .idle) (ht : s.fe.frame.type ≠ some typeData)
    (h : rendezvousCompletion s.fe.frame s = u)
    (ho : u.line.sense.offer = s.line.sense.offer) :
    NextIs .completionWindowEnd s (frameEnded u) :=
  nextIs_of_busChange rfl hb (completionWindowEnd_listener hw hr hi ht h ho)

/-- OWN_RELEASE_SENSED, with REQ released, at a participant in a CANCEL with nothing in reception: the freeze is lifted and the participant rests. -/
theorem ownReleaseSensed_cancel {p : ParticipantPhase} {s : State}
    (hr : s.hs.role = .participant p) (hp : s.fe.frame.position ≠ .none)
    (hi : s.rm.state = .idle) (ht : s.fe.frame.type = some typeCancel) :
    ownReleaseSensed false s =
      silenceByReq false (restAsParticipant (endFrameState (liftFreeze (ownGone false s)))) := by
  rw [ownReleaseSensed_eq, ownReleased_listener (s := ownGone false s) hp (.inr ⟨p, hr⟩),
    handAbandonment_idle (s := ownGone false s) hi]
  simp [rendezvousAbandonment, ownGone, ht, typeCancel, typeOpen]

end Sys2Proof.Machine

open Sys2Proof Sys2Proof.Machine

/-- Settles O49: the events of a CANCEL's bytes at an open view, by role; then its end, as the rendezvous unit gets it, at a listener that rests. -/
theorem cancelFreezesAndCloses : Obligations.CancelFreezesAndCloses := by
  refine ⟨fun group tag role s hb hg ht hrole => ?_, fun adr tag s hb hw hr hi hp hc => ?_⟩
  · intro parsed sampled taken supplied ended abandoned
    refine ⟨fun hv => ?_, fun hgood ha => ⟨fun hp htype hgrp => ?_, fun hp htype hn => ?_⟩,
      fun hw hr hi hp hc => ?_, fun p hr hp hi hc hv => ?_⟩
    · have ho : viewOpen s.rdv.view = true := viewOpen_iff.2 hv
      refine ⟨cancelHeader_freezes ho hg, fun other h => cancelHeader_other hg h,
        fun hf => ⟨cancelFinal_elsewhere ho hf hg ht, cancelFinal_atTalker ho hf hg ht⟩,
        fun hf => cancelFinal_firing hf _ _ _,
        fun b f hparse => ⟨fun hr hd => ?_, fun hr => ?_, fun hr hu hw hcur => ?_⟩,
        fun b f hparse hf => ⟨fun hr hd => ?_, fun hr => ?_, fun hr hu hw hcur => ?_⟩⟩ <;>
        refine nextIs_of_busChange rfl hb ?_
      · refine (take_hands hparse hr hd).trans
          ((cancelHeader_freezes (s := byteTaken b s) ho hg).trans ?_)
        rw [byteTaken_eq, byteObserved_eq hparse]
      · refine (observe_hands hparse hr).trans
          ((cancelHeader_freezes (s := byteObserved b s) ho hg).trans ?_)
        rw [byteObserved_eq hparse]
      · exact (talkerReadySensed_supplies hcur hw hr hu hparse).trans
          (cancelHeader_freezes (s := byteSupplied b f s) ho hg)
      · refine (take_hands hparse hr hd).trans
          ((cancelFinal_elsewhere (s := byteTaken b s) ho hf hg ht).trans ?_)
        rw [byteTaken_eq, byteObserved_eq hparse]
      · refine (observe_hands hparse hr).trans
          ((cancelFinal_elsewhere (s := byteObserved b s) ho hf hg ht).trans ?_)
        rw [byteObserved_eq hparse]
      · exact (talkerReadySensed_supplies hcur hw hr hu hparse).trans
          (cancelFinal_atTalker (s := byteSupplied b f s) ho hf hg ht)
    · exact congrArg Prod.snd ((parseByte_type hp).trans (parseType_good htype hgood ha
        (typeInError_rendezvous ha hgrp (.inr rfl))))
    · refine (parseByte_cancel (.inl hp) hgood htype).trans
        ((parseCancel_final rfl hn rfl).trans ?_)
      simp [ha]
    · have rests {u : State} := nextIs_listenerRests (u := u) hb hw hr hi (by rw [hc]; decide)
      refine ⟨fun hv hgood hn hres hlen => ?_, fun _ he => ⟨fun hv => ?_, fun hv hpa hres => ?_⟩⟩
      · exact rests ((rendezvousCompletion_cancel hc (endVerdict_good hgood hn) s).trans
          ((cancelCompletion_cancelling hv _ _).trans
            (closeView_eq hg ht hrole hres hlen .cancelled s.ctl.clock))) rfl
      · exact rests ((rendezvousCompletion_cancel_open hc
          (viewOpen_iff.2 (hv.symm.imp_left And.left))).trans (liftFreeze_open he hv)) rfl
      · exact rests ((rendezvousCompletion_cancel_open hc
          (viewOpen_iff.2 (.inl hv))).trans (liftFreeze_arms he hv hpa hres)) rfl
    · have abandons := ownReleaseSensed_cancel hr hp hi hc
      refine ⟨fun htrg hpa he => ?_, fun htrg he => ?_, fun htrg hpa he hs harb => ?_⟩ <;>
        refine nextIs_ownReleaseSensed hb (abandons.trans ?_)
      · have drives : (ownGone false s).line.drive.trg = true := htrg
        rw [liftFreeze_returns (s := ownGone false s) he hv (fun _ => hpa), drives]
        rfl
      · have drives : (ownGone false s).line.drive.trg = false := htrg
        rw [liftFreeze_returns (s := ownGone false s) he hv (by simp [drives]), drives]
        rfl
      · rw [liftFreeze_places (s := ownGone false s) hv hg ht htrg hpa he hs harb]
        rfl
  · intro ended
    have rests {u : State} := nextIs_listenerRests (u := u) hb hw hr hi (by rw [hc]; decide)
    refine ⟨fun hv => rests (rendezvousCompletion_cancel_none hc hv) rfl,
      fun hv => ⟨fun hbad => ?_, fun hgood hn hadr htag => ?_⟩⟩
    · exact rests ((rendezvousCompletion_cancel_bad hc (endVerdict_cancel_bad hc hbad) s).trans
        (liftFreeze_without (.inr (.inr hv)))) rfl
    · have completes : rendezvousCompletion s.fe.frame s = _ :=
        (rendezvousCompletion_cancel hc (endVerdict_good hgood hn) s).trans
          (cancelCompletion_observing hv)
      rw [hadr, htag] at completes
      refine ⟨fun h => rests (completes.trans (if_pos h)) rfl,
        fun hk h => rests (completes.trans (if_neg ?_)) rfl⟩
      rintro (hk' | ⟨hg, ht⟩)
      · exact absurd (hk.symm.trans hk') (by decide)
      · rcases h with h | h
        · exact h hg
        · exact h ht
end

section
/-! The capacities: 4 outcome records (R85), 32 record slots (R124), and the transmit quota (R89). -/

namespace Sys2Proof.Machine

open Sys2Proof

/-! ### What the capacities count -/

/-- Places of the record queue in use: the queued records, and the slot that is reserved for a record under construction (R124). -/
def slotsInUse (s : State) : Nat :=
  s.rm.records.length + (if s.rm.construction.isSome then 1 else 0)

/-- Each capacity that is not exceeded in one state is not exceeded in the other. -/
def KeepsCapacities (s t : State) : Prop :=
  (s.rdv.outcomes.length ≤ 4 → t.rdv.outcomes.length ≤ 4) ∧
    (slotsInUse s ≤ 32 → slotsInUse t ≤ 32) ∧ (QuotaKept s → QuotaKept t)

/-- A state keeps its own capacities. -/
theorem KeepsCapacities.refl (s : State) : KeepsCapacities s s := ⟨id, id, id⟩

/-- One entry of a list replaced: what it held, and what it holds now. -/
theorem length_flatMap_set {α β : Type} (f : α → List β) (d : α) :
    ∀ (l : List α) (i : Nat) (hi : i < l.length),
      ((l.set i d).flatMap f).length + (f l[i]).length = (l.flatMap f).length + (f d).length
  | _ :: _, 0, _ => by simp; omega
  | _ :: rest, i + 1, hi => by
    have := length_flatMap_set f d rest i (by simpa using hi)
    simp only [List.set_cons_succ, List.flatMap_cons, List.length_append, List.getElem_cons_succ]
    omega

/-- A descriptor replaced: the blocks of the old one are held no more, those of the new one are. -/
theorem transmitHeld_setDescriptor (i : Fin 16) (d : Descriptor) (s : State) :
    transmitHeld (setDescriptor i d s) + s.tm.table[i].blocks.length =
      transmitHeld s + d.blocks.length := by
  have := length_flatMap_set (·.blocks) d s.tm.table.toList i (by simp)
  simpa [transmitHeld, descriptorBlocks, Vector.toList_set] using this

section Kept

variable {s₀ s : State}

/-! ### The frame table and the system slot (R99–R101) -/

/-- A descriptor that takes no more blocks than the one before it. -/
theorem setDescriptor_capacities {i : Fin 16} {d : Descriptor} (h : KeepsCapacities s₀ s)
    (hd : d.blocks.length ≤ s.tm.table[i].blocks.length) :
    KeepsCapacities s₀ (setDescriptor i d s) := by
  obtain ⟨ho, hr, hq⟩ := h
  refine ⟨ho, hr, fun h₀ => ?_⟩
  have kept : transmitHeld s ≤ transmitQuota s := hq h₀
  have moved := transmitHeld_setDescriptor i d s
  change transmitHeld (setDescriptor i d s) ≤ transmitQuota s
  omega

/-- A descriptor that changes its state keeps its blocks, whatever queue it joins. -/
theorem queueAtTail_capacities {i : Fin 16} (h : KeepsCapacities s₀ s) :
    KeepsCapacities s₀ (queueAtTail i s) := by
  have queued : KeepsCapacities s₀ (setDescriptor i { s.tm.table[i] with state := .queued } s) :=
    setDescriptor_capacities h (le_refl _)
  simp only [queueAtTail]
  split <;> exact queued

/-- A descriptor that returns keeps its blocks. -/
theorem queueAtHead_capacities {i : Fin 16} (h : KeepsCapacities s₀ s) :
    KeepsCapacities s₀ (queueAtHead i s) := by
  have queued : KeepsCapacities s₀ (setDescriptor i { s.tm.table[i] with state := .queued } s) :=
    setDescriptor_capacities h (le_refl _)
  simp only [queueAtHead]
  split <;> exact queued

/-- The removal of the slot's frame moves what no capacity counts. -/
theorem removeSlotFrame_capacities (h : KeepsCapacities s₀ s) :
    KeepsCapacities s₀ (removeSlotFrame s) := by
  simp only [removeSlotFrame]
  (repeat' split) <;> exact h

/-- A purge acts on the slot alone. -/
theorem purgeCancel_capacities {tag : Byte} (h : KeepsCapacities s₀ s) :
    KeepsCapacities s₀ (purgeCancel tag s) := by
  rw [purgeCancel_eq]
  exact h

/-- A frame that is selected keeps its blocks (R23). -/
theorem selectFrame_capacities {f : FrameRef} (h : KeepsCapacities s₀ s) :
    KeepsCapacities s₀ (selectFrame f s) := by
  simp only [selectFrame]
  split
  · split <;> exact h
  · exact setDescriptor_capacities h (le_refl _)

/-- A frame that goes back keeps its blocks (R27–R29). -/
theorem returnSelected_capacities (h : KeepsCapacities s₀ s) :
    KeepsCapacities s₀ (returnSelected s) := by
  simp only [returnSelected]
  split
  · exact queueAtHead_capacities h
  · split <;> exact h
  · exact h

/-- A frame that goes into flight keeps its blocks (R109). -/
theorem beginAttempt_capacities (h : KeepsCapacities s₀ s) :
    KeepsCapacities s₀ (beginAttempt s) := by
  have forgotten : KeepsCapacities s₀ { s with tm.handed := none } := h
  simp only [beginAttempt]
  split
  · exact setDescriptor_capacities forgotten (le_refl _)
  · split <;> exact h
  · exact h

/-! ### The arbiter (R20–R31) -/

/-- An arbiter that asks for the bus selects a frame and moves no block. -/
theorem askArbiter_capacities (h : KeepsCapacities s₀ s) :
    KeepsCapacities s₀ (askArbiter s) := by
  simp only [askArbiter]
  split
  · split
    · exact selectFrame_capacities h
    · exact h
  · exact h

/-- The entry into STANDBY asks. -/
theorem enterStandby_capacities (h : KeepsCapacities s₀ s) :
    KeepsCapacities s₀ (enterStandby s) := askArbiter_capacities h

/-- A bid given up returns its frame. -/
theorem giveUpBid_capacities (h : KeepsCapacities s₀ s) :
    KeepsCapacities s₀ (giveUpBid s) := returnSelected_capacities h

/-- A frame placed in the slot is asked for. -/
theorem placeSlotFrame_capacities {kind : SlotKind} (h : KeepsCapacities s₀ s) :
    KeepsCapacities s₀ (placeSlotFrame kind s) := askArbiter_capacities h

/-- An automatic CANCEL is placed in the slot or merged. -/
theorem placeCancel_capacities {group tag : Byte} (h : KeepsCapacities s₀ s) :
    KeepsCapacities s₀ (placeCancel group tag s) := by
  simp only [placeCancel]
  split
  · exact placeSlotFrame_capacities h
  · exact h

/-- REQ_SENSED. -/
theorem reqSensed_capacities (h : KeepsCapacities s₀ s) :
    KeepsCapacities s₀ (reqSensed s) := by
  simp only [reqSensed]
  split
  · split
    · exact selectFrame_capacities h
    · exact h
  · exact h

/-- ARBITRATION_DECISION. -/
theorem arbitrationDecision_capacities {d : Byte} (h : KeepsCapacities s₀ s) :
    KeepsCapacities s₀ (arbitrationDecision d s) := by
  simp only [arbitrationDecision]
  split
  · split
    · exact h
    · exact giveUpBid_capacities h
  · exact h

/-- WON_HOLD_END. -/
theorem wonHoldEnd_capacities (h : KeepsCapacities s₀ s) :
    KeepsCapacities s₀ (wonHoldEnd s) := by
  simp only [wonHoldEnd]
  split
  · exact beginAttempt_capacities h
  · exact h

/-- ROUND_GAP_EXPIRY. -/
theorem roundGapExpiry_capacities (h : KeepsCapacities s₀ s) :
    KeepsCapacities s₀ (roundGapExpiry s) := by
  simp only [roundGapExpiry]
  split
  · exact askArbiter_capacities h
  · exact h

/-! ### The outcome queue (R85, R86) -/

/-- A record joins the outcome queue, and a full queue loses its oldest first. -/
theorem addOutcome_capacities {r : OutcomeRecord} (h : KeepsCapacities s₀ s) :
    KeepsCapacities s₀ (addOutcome r s) := by
  obtain ⟨ho, hr, hq⟩ := h
  simp only [addOutcome]
  split
  · rename_i free
    exact ⟨fun _ => by simpa using free, hr, hq⟩
  · refine ⟨fun h₀ => ?_, hr, hq⟩
    have := ho h₀
    simp
    omega


/-- The view that closes leaves a record. -/
theorem closeView_capacities {o : RdvOutcome} {closedAt : ClockTime} (h : KeepsCapacities s₀ s) :
    KeepsCapacities s₀ (closeView o closedAt s) := by
  have released : KeepsCapacities s₀ (releaseTrg s) := by
    simp only [releaseTrg]
    split <;> exact h
  exact purgeCancel_capacities (addOutcome_capacities released)

/-- An OPEN that leaves the slot leaves a record. -/
theorem notOpened_capacities {group tag : Byte} {reason : NotOpenedReason}
    (h : KeepsCapacities s₀ s) : KeepsCapacities s₀ (notOpened group tag reason s) :=
  addOutcome_capacities h

/-- The record that was read leaves the queue (R86). -/
theorem outcomeRead_capacities (h : KeepsCapacities s₀ s) :
    KeepsCapacities s₀ (outcomeRead s) := by
  obtain ⟨ho, hr, hq⟩ := h
  simp only [outcomeRead]
  split
  · refine ⟨fun h₀ => ?_, hr, hq⟩
    have := ho h₀
    simp
    omega
  · exact ⟨ho, hr, hq⟩

/-! ### The view (R55–R84) -/

/-- The end of a well-formed OPEN may discard an own OPEN. -/
theorem openCompletion_capacities (h : KeepsCapacities s₀ s) :
    KeepsCapacities s₀ (openCompletion s) := by
  have discards {t : State} (ht : KeepsCapacities s₀ t) :
      KeepsCapacities s₀ (discardLostOpen t) := by
    simp only [discardLostOpen]
    split
    · split
      · exact notOpened_capacities ht
      · exact ht
    · exact ht
  refine discards ?_
  split
  · exact h
  · split
    · split <;> exact h
    · exact h

/-- A CANCEL that ends without closing the view may place the automatic CANCEL. -/
theorem liftFreeze_capacities (h : KeepsCapacities s₀ s) :
    KeepsCapacities s₀ (liftFreeze s) := by
  have places {t : State} (ht : KeepsCapacities s₀ t) :
      KeepsCapacities s₀ (placeDeferredCancel t) := by
    simp only [placeDeferredCancel]
    split
    · exact placeCancel_capacities ht
    · exact ht
  simp only [liftFreeze]
  split
  · refine places ?_
    obtain ⟨trg, st, pa, moved, -⟩ := applyPendingArm_moves
      (setView { viewReturned s.line.drive.trg s.rdv.view with freeze := false } s)
    rw [moved]
    exact h
  · exact h

/-- The end of a completed frame at the rendezvous unit. -/
theorem rendezvousCompletion_capacities {f : FrameState} (h : KeepsCapacities s₀ s) :
    KeepsCapacities s₀ (rendezvousCompletion f s) := by
  simp only [rendezvousCompletion]
  split
  · split
    · exact openCompletion_capacities h
    · exact h
  · split
    · split
      · simp only [cancelCompletion]
        split
        · exact closeView_capacities h
        · split <;> exact h
        · exact liftFreeze_capacities h
        · exact liftFreeze_capacities h
        · exact h
        · exact h
      · exact liftFreeze_capacities h
    · exact h

/-- The end of an abandoned frame at the rendezvous unit. -/
theorem rendezvousAbandonment_capacities {f : FrameState} (h : KeepsCapacities s₀ s) :
    KeepsCapacities s₀ (rendezvousAbandonment f s) := by
  simp only [rendezvousAbandonment]
  split
  · rw [openAbandoned_eq]
    split <;> exact h
  · split
    · exact liftFreeze_capacities h
    · exact h

/-- A CANCEL that nobody hears closes the view (R74). -/
theorem closeNoListener_capacities {tag : Byte} (h : KeepsCapacities s₀ s) :
    KeepsCapacities s₀ (closeNoListener tag s) := by
  simp only [closeNoListener]
  split
  · exact closeView_capacities h
  · exact h

/-- An ARM moves the view and TRG alone. -/
theorem applyArm_capacities (h : KeepsCapacities s₀ s) : KeepsCapacities s₀ (applyArm s) := by
  simp only [applyArm, releaseTrg]
  split
  · split <;> exact h
  · exact h
  · exact h

/-- FIRE_DELAY_END. -/
theorem fireDelayEnd_capacities (h : KeepsCapacities s₀ s) :
    KeepsCapacities s₀ (fireDelayEnd s) := by
  simp only [fireDelayEnd]
  split
  · exact closeView_capacities h
  · exact h
  · exact h

/-- DEADLINE_EXPIRY. -/
theorem deadlineExpiry_capacities (h : KeepsCapacities s₀ s) :
    KeepsCapacities s₀ (deadlineExpiry s) := by
  simp only [deadlineExpiry]
  split
  · exact h
  · split
    case h_1 | h_2 =>
      split
      · exact placeCancel_capacities h
      · exact h
    all_goals exact h

/-- CLEAR_BREAK_CLASSIFICATION may purge a CANCEL. -/
theorem clearBreakClassification_capacities (h : KeepsCapacities s₀ s) :
    KeepsCapacities s₀ (clearBreakClassification s) := by
  simp only [clearBreakClassification, closingSet]
  split
  · split
    case h_1 | h_2 => exact purgeCancel_capacities h
    all_goals exact h
  all_goals exact h

/-- The release of BRK closes a view or fires it. -/
theorem breakReleasedAtView_capacities (h : KeepsCapacities s₀ s) :
    KeepsCapacities s₀ (breakReleasedAtView s) := by
  simp only [breakReleasedAtView]
  split
  · exact closeView_capacities h
  · split
    · exact closeView_capacities h
    all_goals exact h

/-- The view of a station that leaves the bus may close. -/
theorem viewLeavesBus_capacities (h : KeepsCapacities s₀ s) :
    KeepsCapacities s₀ (viewLeavesBus s) := by
  simp only [viewLeavesBus]
  split
  case h_1 | h_2 | h_3 => exact closeView_capacities h
  all_goals exact h

/-- The slot of a station that leaves the bus is emptied. -/
theorem emptySlotAtEntry_capacities (h : KeepsCapacities s₀ s) :
    KeepsCapacities s₀ (emptySlotAtEntry s) := by
  simp only [emptySlotAtEntry]
  split
  · split
    · exact notOpened_capacities h
    all_goals exact h
  · exact h

/-! ### The receive manager (R122–R145) -/

/-- A slot is free while fewer than 32 are in use (R124). -/
theorem slotFree_iff : slotFree s = true ↔ slotsInUse s < 32 := by
  simp [slotFree, slotsInUse]

/-- An operation of the receive manager that stays within the record slots. -/
theorem reception_capacities {t : State} (h : KeepsCapacities s₀ s)
    (e : t.rdv = s.rdv ∧ t.tm = s.tm ∧ t.ctl = s.ctl)
    (hr : slotsInUse s ≤ 32 → slotsInUse t ≤ 32) : KeepsCapacities s₀ t := by
  obtain ⟨hv, ht, hc⟩ := e
  refine ⟨fun h₀ => ?_, fun h₀ => hr (h.2.1 h₀), fun h₀ => ?_⟩
  · rw [hv]
    exact h.1 h₀
  · simpa only [QuotaKept, transmitHeld, descriptorBlocks, transmitQuota, ht, hc] using h.2.2 h₀

/-- Copies are stored in the record under construction, if there is one. -/
@[simp] theorem storeCopies_construction (value : Byte) (last : Bool) (n : Nat) (s : State) :
    (storeCopies value last n s).rm.construction.isSome = s.rm.construction.isSome := by
  induction n generalizing s with
  | zero => rfl
  | succ n ih =>
    simp only [storeCopies, requestRefused]
    (repeat' split) <;> simp [putCopy, *]

/-- The copies of a byte make no record and end none. -/
@[simp] theorem receiveCopies_construction (value : Byte) (n : Nat) (last : Bool) (s : State) :
    (receiveCopies value n last s).rm.construction.isSome = s.rm.construction.isSome := by
  simp only [receiveCopies]
  split <;> simp [countFull]

/-- A malformed payload makes no record and ends none. -/
@[simp] theorem receiveMalformed_construction (s : State) :
    (receiveMalformed s).rm.construction.isSome = s.rm.construction.isSome := by
  simp only [receiveMalformed]
  split <;> simp

/-- An operation that leaves the queues, the frame table and the configuration as they are. -/
theorem KeepsCapacities.of_same {t : State} (h : KeepsCapacities s₀ s)
    (e : t.rdv.outcomes = s.rdv.outcomes ∧ t.rm.records = s.rm.records ∧
      t.rm.construction.isSome = s.rm.construction.isSome ∧ t.tm.table = s.tm.table ∧
      t.ctl.configuration = s.ctl.configuration) : KeepsCapacities s₀ t := by
  obtain ⟨ho, hr, hk, ht, hc⟩ := e
  simpa only [KeepsCapacities, slotsInUse, QuotaKept, transmitHeld, descriptorBlocks,
    transmitQuota, ho, hr, hk, ht, hc] using h

/-- A record slot is given where one is free, or waited for (R125–R127). -/
theorem requestSlot_capacities (h : KeepsCapacities s₀ s) :
    KeepsCapacities s₀ (requestSlot s) := by
  simp only [requestSlot]
  split
  · split
    · rename_i free
      refine reception_capacities h (by simp) fun _ => ?_
      have room : slotsInUse s < 32 := slotFree_iff.1 free
      simp [slotsInUse] at room ⊢
      omega
    · split <;> exact h
  · exact h

/-- A record under construction that is discarded gives its slot up (R136). -/
theorem receptionAbandonment_capacities (h : KeepsCapacities s₀ s) :
    KeepsCapacities s₀ (receptionAbandonment s) := by
  refine reception_capacities h (by simp) fun held => ?_
  simp [slotsInUse, receptionAbandonment_eq] at held ⊢
  omega

/-- A record that joins the queue takes one more place. -/
theorem slotsInUse_joinRecord (source address : Byte) (status : RecordStatus)
    (fullLength keptLength : Nat) (blocks : List Nat) (s : State) :
    slotsInUse (joinRecord source address status fullLength keptLength blocks s) =
      slotsInUse s + 1 := by
  simp only [slotsInUse, joinRecord, List.length_append, List.length_singleton]
  exact Nat.add_right_comm _ _ _

/-- A record that is complete takes the place of the one under construction (R133), and a frame without a payload takes a free one. -/
theorem receptionCompletion_capacities {f : FrameState} (h : KeepsCapacities s₀ s) :
    KeepsCapacities s₀ (receptionCompletion f s) := by
  simp only [receptionCompletion]
  split
  case h_1 _ hc | h_2 _ hc | h_3 _ hc =>
    refine reception_capacities h (by simp) fun held => ?_
    simpa [slotsInUse, joinRecord, hc] using held
  case h_4 =>
    refine reception_capacities h (by simp) fun held => ?_
    simp [slotsInUse] at held ⊢
    omega
  case h_5 =>
    split
    · exact h
    · split
      · rename_i free
        refine reception_capacities h (by simp) fun _ => ?_
        rw [slotsInUse_joinRecord]
        exact slotFree_iff.1 free
      · exact h
  case h_6 => exact receptionAbandonment_capacities h

/-- CONFIGURE's new flags make no record and end none. -/
theorem reevaluateAged_capacities (h : KeepsCapacities s₀ s) :
    KeepsCapacities s₀ (reevaluateAged s) :=
  reception_capacities h (by simp) (by simp [slotsInUse, reevaluateAged])

/-- AGED_FLAG_SET. -/
theorem agedFlagSet_capacities {place : Nat} (h : KeepsCapacities s₀ s) :
    KeepsCapacities s₀ (agedFlagSet place s) := by
  simp only [agedFlagSet]
  split
  · exact h
  · exact reception_capacities h (by simp) (by simp [slotsInUse, setAgedAt_length])

/-! ### Bytes at a listener, and freeings (R2, R9, R10, R40, R95) -/

/-- What a participant hands on fills no queue. -/
theorem handTaken_capacities {e : FrameEvent} (h : KeepsCapacities s₀ s) :
    KeepsCapacities s₀ (handTaken e s) := by
  obtain ⟨hr, ho⟩ := handTaken_queues e s
  refine h.of_same ⟨ho, hr, ?_, by simp, by simp⟩
  cases e with
  | copies | malformed =>
    simp only [handTaken]
    split <;> simp
  | nothing => rfl
  | cancelHeader | cancelFinal | openFinal => simp [handTaken]

/-- A byte that is taken fills no queue. -/
theorem takeByte_capacities {b : BusByte} (h : KeepsCapacities s₀ s) :
    KeepsCapacities s₀ (takeByte b s) := by
  simp only [takeByte, holdDuplicate]
  split
  · exact h.of_same (by simp)
  · exact handTaken_capacities h

/-- A byte that is taken moves no queued record. -/
theorem takeByte_records (b : BusByte) (s : State) :
    (takeByte b s).rm.records = s.rm.records := by
  simp only [takeByte, holdDuplicate]
  split
  · simp
  · exact (handTaken_queues _ _).1

/-- A participant that becomes ready may take the byte on offer. -/
theorem becomeReady_capacities (h : KeepsCapacities s₀ s) :
    KeepsCapacities s₀ (becomeReady s) := by
  simp only [becomeReady]
  split
  · split
    · exact takeByte_capacities h
    · exact h
  · exact h

/-- A participant that becomes ready moves no queued record. -/
theorem becomeReady_records (s : State) : (becomeReady s).rm.records = s.rm.records := by
  simp only [becomeReady]
  split
  · split
    · exact takeByte_records _ _
    · rfl
  · rfl

/-- A freeing fills no queue. -/
theorem freeBlocks_capacities {blocks : List Nat} (h : KeepsCapacities s₀ s) :
    KeepsCapacities s₀ (freeBlocks blocks s) := by
  cases blocks with
  | nil => exact h
  | cons b rest =>
    refine becomeReady_capacities (KeepsCapacities.of_same h ?_)
    simp only [renewRequest]
    split <;> simp

/-- A freeing moves no queued record. -/
theorem freeBlocks_records (blocks : List Nat) (s : State) :
    (freeBlocks blocks s).rm.records = s.rm.records := by
  cases blocks with
  | nil => rfl
  | cons b rest =>
    refine (becomeReady_records _).trans ?_
    simp only [renewRequest]
    split <;> simp

/-- The place of the removed head record is what a waiting participant may take (R126, R141). -/
theorem removeHeadRecord_capacities (h : KeepsCapacities s₀ s) :
    KeepsCapacities s₀ (removeHeadRecord s) := by
  simp only [removeHeadRecord]
  split
  · exact h
  · rename_i r rest hrec
    have shorter : KeepsCapacities s₀ { s with rm.records := rest } :=
      reception_capacities h (by simp) fun held => by
        simp only [slotsInUse, hrec, List.length_cons] at held ⊢
        omega
    have freed : KeepsCapacities s₀ (freeBlocks r.blocks { s with rm.records := rest }) :=
      freeBlocks_capacities shorter
    split
    · refine becomeReady_capacities ⟨freed.1, fun h₀ => ?_, freed.2.2⟩
      have held := h.2.1 h₀
      have records := freeBlocks_records r.blocks { s with rm.records := rest }
      simp only [slotsInUse, hrec, List.length_cons] at held
      simp only [slotsInUse, reserveSlot, records, Option.isSome_some, if_true]
      omega
    · exact freed

/-- TAKE. -/
theorem take_capacities {b : BusByte} (h : KeepsCapacities s₀ s) :
    KeepsCapacities s₀ (take b s) := by
  simp only [take]
  split
  · exact takeByte_capacities h
  all_goals exact h

/-- OBSERVE. -/
theorem observe_capacities {b : BusByte} (h : KeepsCapacities s₀ s) :
    KeepsCapacities s₀ (observe b s) := by
  simp only [observe]
  split
  case h_3 | h_4 =>
    simp only [handObserved, cancelHeader, openFinalElsewhere, cancelFinal]
    (repeat' split) <;> exact h
  all_goals exact h

/-- A participant that narrows may ask for a record slot. -/
theorem narrow_capacities (h : KeepsCapacities s₀ s) : KeepsCapacities s₀ (narrow s) := by
  simp only [narrow]
  split
  · refine becomeReady_capacities ?_
    split
    · exact requestSlot_capacities h
    · exact h
  · exact h

/-- The abandonment of a frame, as it is handed on. -/
theorem handAbandonment_capacities (h : KeepsCapacities s₀ s) :
    KeepsCapacities s₀ (handAbandonment s) := by
  refine rendezvousAbandonment_capacities ?_
  split
  · exact h
  · exact receptionAbandonment_capacities h

/-- An abandoned frame gives up its record. -/
theorem abandonFrame_capacities (h : KeepsCapacities s₀ s) :
    KeepsCapacities s₀ (abandonFrame s) := by
  simp only [abandonFrame]
  split
  · exact h
  · exact handAbandonment_capacities h

/-- The withdrawal of a LAST byte may abandon a frame (R11, log 42). -/
theorem lastWithdrawn_capacities (h : KeepsCapacities s₀ s) :
    KeepsCapacities s₀ (lastWithdrawn s) := by
  simp only [lastWithdrawn]
  split
  · exact h
  · split
    · exact h
    · exact abandonFrame_capacities h
    all_goals exact h

/-- A participant that asserts PEND again narrows or becomes ready. -/
theorem releaseTaken_capacities (h : KeepsCapacities s₀ s) :
    KeepsCapacities s₀ (releaseTaken s) := by
  rw [releaseTaken_eq]
  split
  · exact narrow_capacities h
  · exact becomeReady_capacities h

/-- OFFER_RELEASE_SENSED. -/
theorem offerReleaseSensed_capacities (h : KeepsCapacities s₀ s) :
    KeepsCapacities s₀ (offerReleaseSensed s) := by
  have withdrawn {t : State} (ht : KeepsCapacities s₀ t) :
      KeepsCapacities s₀ (if observedLast t then lastWithdrawn t else t) := by
    split
    · exact lastWithdrawn_capacities ht
    · exact ht
  simp only [offerReleaseSensed]
  split
  · exact h
  · exact releaseTaken_capacities (withdrawn h)
  · exact withdrawn h

/-- OWN_ASSERTION_SENSED. -/
theorem ownAssertionSensed_capacities (h : KeepsCapacities s₀ s) :
    KeepsCapacities s₀ (ownAssertionSensed s) := by
  simp only [ownAssertionSensed]
  split
  · exact h
  · cases s.arb.phase with
    | bidding => exact giveUpBid_capacities (s := ownHeard s) h
    | off | standby | won | owner | outside => exact h

/-- OWN_RELEASE_SENSED. -/
theorem ownReleaseSensed_capacities {req : Bool} (h : KeepsCapacities s₀ s) :
    KeepsCapacities s₀ (ownReleaseSensed req s) := by
  have released {t : State} (ht : KeepsCapacities s₀ t) : KeepsCapacities s₀ (ownReleased t) := by
    simp only [ownReleased]
    split
    · split <;> exact abandonFrame_capacities ht
    · exact ht
  simp only [ownReleaseSensed]
  split <;> exact released h

/-- BUS_IDLE_SENSED. -/
theorem busIdleSensed_capacities (h : KeepsCapacities s₀ s) :
    KeepsCapacities s₀ (busIdleSensed s) := by
  have released : KeepsCapacities s₀ (ownReleaseSensed false s) := ownReleaseSensed_capacities h
  simp only [busIdleSensed]
  split
  · exact h
  · split
    · exact enterStandby_capacities released
    · exact enterStandby_capacities (giveUpBid_capacities released)
    · exact enterStandby_capacities (giveUpBid_capacities released)
    all_goals exact released

/-- A frame that completes at a listener is handed on. -/
theorem completeElsewhere_capacities (h : KeepsCapacities s₀ s) :
    KeepsCapacities s₀ (completeElsewhere s) := by
  have handed : KeepsCapacities s₀ (handCompletion s) := by
    refine rendezvousCompletion_capacities ?_
    split
    · exact receptionCompletion_capacities h
    · exact h
  simp only [completeElsewhere]
  split
  · exact handed
  · exact becomeReady_capacities handed

/-! ### Attempts and their ends (R109–R119) -/

/-- A descriptor that is finished gives its blocks back (R112). -/
theorem finishDescriptor_capacities {i : Fin 16} {o : TxOutcome} (h : KeepsCapacities s₀ s) :
    KeepsCapacities s₀ (finishDescriptor i o s) :=
  freeBlocks_capacities (setDescriptor_capacities h (Nat.zero_le _))

/-- The end of a descriptor's attempt. -/
theorem endDescriptorAttempt_capacities {i : Fin 16} {o : TxOutcome}
    (h : KeepsCapacities s₀ s) : KeepsCapacities s₀ (endDescriptorAttempt i o s) := by
  simp only [endDescriptorAttempt]
  split
  case h_4 | h_5 =>
    split
    · exact queueAtHead_capacities h
    · exact finishDescriptor_capacities h
  all_goals exact finishDescriptor_capacities h

/-- The end of a HELLO's attempt. -/
theorem endHello_capacities {f : SlotFrame} {o : TxOutcome} {atSource : Bool}
    (h : KeepsCapacities s₀ s) : KeepsCapacities s₀ (endHello f o atSource s) := by
  refine h.of_same ?_
  cases o with
  | sent | noListener | clash => simp [endHello]
  | stalled | broken =>
    simp only [endHello]
    (repeat' split) <;> simp

/-- The end of an OPEN's attempt may leave a record. -/
theorem endOpen_capacities {f : SlotFrame} {group tag : Byte} {o : TxOutcome}
    (h : KeepsCapacities s₀ s) : KeepsCapacities s₀ (endOpen f group tag o s) := by
  cases o with
  | sent => exact h
  | noListener | clash => exact notOpened_capacities h
  | stalled | broken =>
    simp only [endOpen]
    split
    · exact h
    · exact notOpened_capacities h

/-- The end of a CANCEL's attempt may close the view. -/
theorem endCancel_capacities {f : SlotFrame} {tag : Byte} {o : TxOutcome}
    (h : KeepsCapacities s₀ s) : KeepsCapacities s₀ (endCancel f tag o s) := by
  cases o with
  | sent | clash => exact h
  | noListener => exact closeNoListener_capacities h
  | stalled | broken =>
    simp only [endCancel]
    split
    · exact h
    · exact KeepsCapacities.of_same (s := setSlot none s) h (by simp)

/-- The end of an attempt. -/
theorem endAttempt_capacities {o : TxOutcome} {atSource : Bool} (h : KeepsCapacities s₀ s) :
    KeepsCapacities s₀ (endAttempt o atSource s) := by
  have forgotten : KeepsCapacities s₀ { s with tm.handed := none } := h
  simp only [endAttempt]
  split
  · exact endDescriptorAttempt_capacities forgotten
  · split
    · simp only [endSlotAttempt]
      split
      · exact h
      · split
        · exact endHello_capacities forgotten
        · exact endOpen_capacities forgotten
        · exact endCancel_capacities forgotten
    · exact h
  · exact h

/-- The talker at rest again. -/
theorem leaveTalker_capacities (h : KeepsCapacities s₀ s) :
    KeepsCapacities s₀ (leaveTalker s) := h.of_same (by simp)

/-- NO_LISTENER. -/
theorem noListener_capacities (h : KeepsCapacities s₀ s) :
    KeepsCapacities s₀ (noListener s) := by
  simp only [noListener]
  split
  · split
    · exact h
    · refine leaveTalker_capacities (endAttempt_capacities ?_)
      exact handAbandonment_capacities h
  · exact h

/-- COMPLETION_WINDOW_END. -/
theorem completionWindowEnd_capacities (h : KeepsCapacities s₀ s) :
    KeepsCapacities s₀ (completionWindowEnd s) := by
  simp only [completionWindowEnd]
  split
  · exact h
  · split
    · split
      · exact h
      · exact rendezvousCompletion_capacities (endAttempt_capacities h)
    · exact h
    · exact completeElsewhere_capacities h

/-! ### Breaks (R16–R19) and the ways off the bus (R82, R145, R164) -/

/-- BREAK_EDGE, by role. -/
theorem breakRole_capacities (h : KeepsCapacities s₀ s) : KeepsCapacities s₀ (breakRole s) := by
  simp only [breakRole]
  split
  · simp only [breakTalker]
    split
    · exact h
    · exact endAttempt_capacities (handAbandonment_capacities h)
  · exact abandonFrame_capacities h
  · exact abandonFrame_capacities h
  · exact h

/-- BREAK_EDGE. -/
theorem breakEdge_capacities (h : KeepsCapacities s₀ s) : KeepsCapacities s₀ (breakEdge s) := by
  have bids {t : State} (ht : KeepsCapacities s₀ t) : KeepsCapacities s₀ (breakArbiter t) := by
    simp only [breakArbiter]
    split
    case h_1 | h_2 => exact giveUpBid_capacities ht
    all_goals exact ht
  simp only [breakEdge]
  split
  · exact h
  · refine breakRole_capacities (bids ?_)
    simp only [holdFire]
    split <;> exact h

/-- The entry into OFFLINE or FAULTED. -/
theorem leaveBus_capacities {target : StationState} {reason : StationReason}
    (h : KeepsCapacities s₀ s) : KeepsCapacities s₀ (leaveBus target reason s) := by
  have discarded {t : State} (ht : KeepsCapacities s₀ t) :
      KeepsCapacities s₀ (if t.rm.state = .idle then t else receptionAbandonment t) := by
    split
    · exact ht
    · exact receptionAbandonment_capacities ht
  exact emptySlotAtEntry_capacities
    (viewLeavesBus_capacities (discarded (returnSelected_capacities h)))

/-- Nothing is held or queued after an action that clears the outcomes, the records and the table. -/
theorem KeepsCapacities.of_cleared {t : State} (ho : t.rdv.outcomes = [])
    (hr : t.rm = ReceiveManager.cleared) (ht : t.tm = TransmitManager.cleared) :
    KeepsCapacities s₀ t := by
  have held : transmitHeld t = 0 := by
    simp only [transmitHeld, descriptorBlocks, ht]
    decide
  refine ⟨fun _ => by simp [ho], fun _ => by simp [slotsInUse, hr, ReceiveManager.cleared],
    fun _ => ?_⟩
  simp [QuotaKept, held]

/-- The clearing of a soft reset (R164). -/
theorem softResetClearing_capacities : KeepsCapacities s₀ (softResetClearing s) := by
  refine .of_cleared ?_ ?_ ?_ <;>
    (simp only [softResetClearing]; split <;> rfl)

/-- Power-on values (R162). -/
theorem powerOn_capacities {straps : StationNumber} {p : PowerState} {n : Nat} {q : List Instr} :
    KeepsCapacities s₀ (State.powerOn straps p n q) := .of_cleared rfl rfl rfl

/-- BRK_RELEASE. -/
theorem brkRelease_capacities {own req : Bool} (h : KeepsCapacities s₀ s) :
    KeepsCapacities s₀ (brkRelease own req s) := by
  have goesOn {t : State} (ht : KeepsCapacities s₀ t) :
      KeepsCapacities s₀ (releaseOrdinary t) := by
    have viewed : KeepsCapacities s₀ (breakReleasedAtView t) := breakReleasedAtView_capacities ht
    simp only [releaseOrdinary]
    split
    · exact leaveBus_capacities viewed
    · have rested : KeepsCapacities s₀ (rejoinAtRelease (breakReleasedAtView t)) := by
        simp only [rejoinAtRelease]
        split <;> exact viewed
      simp only [arbiterAtRelease]
      split
      · exact enterStandby_capacities rested
      · exact rested
  simp only [brkRelease]
  split
  · split
    · exact softResetClearing_capacities
    · refine goesOn ?_
      simp only [classifyAtRelease]
      split <;> exact h
  · exact h

/-- LEFT. -/
theorem left_capacities (h : KeepsCapacities s₀ s) : KeepsCapacities s₀ (left s) := by
  simp only [left]
  split
  · exact leaveBus_capacities h
  · exact h

/-- JOIN_ABANDONED. -/
theorem joinAbandoned_capacities (h : KeepsCapacities s₀ s) :
    KeepsCapacities s₀ (joinAbandoned s) := by
  simp only [joinAbandoned]
  split
  · exact leaveBus_capacities h
  · exact h

/-- The action that begins participation (R150). -/
theorem beginParticipation_capacities (h : KeepsCapacities s₀ s) :
    KeepsCapacities s₀ (beginParticipation s) := by
  refine placeSlotFrame_capacities ?_
  have leaves {t : State} (ht : KeepsCapacities s₀ t) :
      KeepsCapacities s₀ (arbiterLeavesOff t) := by
    simp only [arbiterLeavesOff]
    split
    · exact ht
    · exact enterStandby_capacities ht
  simp only [observeAtJoin]
  split <;> exact leaves h

/-- PARTICIPATION_BEGIN. -/
theorem participationBegin_capacities {req trg : Bool} (h : KeepsCapacities s₀ s) :
    KeepsCapacities s₀ (participationBegin req trg s) := by
  simp only [participationBegin]
  split
  · exact beginParticipation_capacities h
  · exact h

/-! ### The host's commands (R102–R163) -/

/-- SEND takes no more blocks than the quota leaves (R89, R90). -/
theorem acceptSend_capacities {i : Fin 16} {tag cls destination flags : Byte} {length : Nat}
    (h : KeepsCapacities s₀ s) (room : blocksRefused (blocksNeeded length) s = false) :
    KeepsCapacities s₀ (acceptSend i tag cls destination flags length s) := by
  simp only [blocksRefused, Bool.or_eq_false_iff, decide_eq_false_iff_not, not_lt] at room
  obtain ⟨quota, -⟩ := room
  have taken : transmitHeld (acceptSend i tag cls destination flags length s) +
      s.tm.table[i].blocks.length =
        transmitHeld s + (s.mem.pool.take (blocksNeeded length)).length :=
    transmitHeld_setDescriptor i _ { s with mem.pool := s.mem.pool.drop (blocksNeeded length) }
  have given := List.length_take_le (blocksNeeded length) s.mem.pool
  refine ⟨h.1, h.2.1, fun _ => ?_⟩
  change transmitHeld (acceptSend i tag cls destination flags length s) ≤ transmitQuota s
  omega

/-- The last test of SEND is the packet memory's. -/
theorem sendTest_room {tag cls destination : Byte} {length : Nat} {i : Fin 16}
    (h : sendTest tag cls destination length s = .ok i) :
    blocksRefused (blocksNeeded length) s = false := by
  simp only [sendTest] at h
  split_ifs at h with _ _ _ refused
  · split at h <;> cases h
  · exact Bool.eq_false_iff.2 refused

/-- SEND. -/
theorem cmdSend_capacities {tag cls destination flags lengthHigh lengthLow : Byte}
    (h : KeepsCapacities s₀ s) :
    KeepsCapacities s₀ (cmdSend tag cls destination flags lengthHigh lengthLow s).1 := by
  simp only [cmdSend]
  split
  · exact h
  · rename_i i accepted
    have taken := acceptSend_capacities (i := i) (tag := tag) (cls := cls)
      (destination := destination) (flags := flags) h (sendTest_room accepted)
    split
    · exact askArbiter_capacities (queueAtTail_capacities taken)
    · exact taken

/-- A descriptor that becomes FREE holds no blocks (R93). -/
theorem freeDescriptor_capacities {i : Fin 16} (h : KeepsCapacities s₀ s) :
    KeepsCapacities s₀ (freeDescriptor i s) :=
  freeBlocks_capacities (setDescriptor_capacities h (Nat.zero_le _))

/-- WITHDRAW. -/
theorem cmdWithdraw_capacities {tag : Byte} (h : KeepsCapacities s₀ s) :
    KeepsCapacities s₀ (cmdWithdraw tag s).1 := by
  simp only [cmdWithdraw]
  split
  · exact h
  · split
    · exact freeDescriptor_capacities (s := leaveQueue _ s) h
    all_goals exact h

/-- The end of a REAP. -/
theorem reapRead_capacities (h : KeepsCapacities s₀ s) : KeepsCapacities s₀ (reapRead s) := by
  simp only [reapRead]
  split
  · exact h
  · exact setDescriptor_capacities (s := { s with tm.completion := _ }) h (Nat.zero_le _)

/-- SEND's data phase abandoned. -/
theorem abandonSend_capacities (h : KeepsCapacities s₀ s) :
    KeepsCapacities s₀ (abandonSend s) := by
  simp only [abandonSend]
  split
  · exact freeDescriptor_capacities h
  · exact h

/-- JOIN. -/
theorem cmdJoin_capacities (h : KeepsCapacities s₀ s) : KeepsCapacities s₀ (cmdJoin s).1 := by
  simp only [cmdJoin]
  split
  · simp only
    split
    · exact beginParticipation_capacities h
    · exact h
  · exact h

/-- LEAVE. -/
theorem cmdLeave_capacities (h : KeepsCapacities s₀ s) : KeepsCapacities s₀ (cmdLeave s).1 := by
  simp only [cmdLeave]
  split
  · split
    · exact h
    · exact left_capacities h
  · simp only [abandonJoin]
    split
    · exact h
    · split
      · exact joinAbandoned_capacities (removeSlotFrame_capacities h)
      · exact leaveBus_capacities h
  all_goals exact h

/-- CONFIGURE takes a new reserve only if the blocks held fit the new quota (R96). -/
theorem cmdConfigure_capacities {stall silence retry reserve notify age unicast broadcast : Byte}
    (h : KeepsCapacities s₀ s) :
    KeepsCapacities s₀
      (cmdConfigure stall silence retry reserve notify age unicast broadcast s).1 := by
  simp only [cmdConfigure]
  split
  · exact h
  · split
    · split
      · rename_i c _ fits
        simp only [configurationFits, Bool.and_eq_true, decide_eq_true_eq] at fits
        have configured : KeepsCapacities s₀ { s with ctl.configuration := c } :=
          ⟨h.1, h.2.1, fun _ => fits.1⟩
        exact reevaluateAged_capacities configured
      · exact h
    · exact h

/-- Every command of the host at its owner. -/
theorem ownerAction_capacities {c : HostCommand} {p : List Byte} (h : KeepsCapacities s₀ s) :
    KeepsCapacities s₀ (ownerAction c p s).1 := by
  simp only [ownerAction]
  cases c with
  | configure => exact cmdConfigure_capacities h
  | setGroup =>
    simp only [cmdSetGroup]
    (repeat' split) <;> exact h
  | join => exact cmdJoin_capacities h
  | leave => exact cmdLeave_capacities h
  | send => exact cmdSend_capacities h
  | withdraw => exact cmdWithdraw_capacities h
  | discard =>
    simp only [cmdDiscard]
    split
    · exact h
    · exact removeHeadRecord_capacities h
  | openRdv =>
    simp only [cmdOpen]
    split_ifs
    case neg => exact placeSlotFrame_capacities h
    all_goals exact h
  | arm =>
    simp only [cmdArm]
    split
    · exact h
    · split
      · exact applyArm_capacities h
      · exact applyArm_capacities h
      · exact h
  | cancel =>
    simp only [cmdCancel]
    split_ifs
    case neg => exact placeCancel_capacities h
    all_goals exact h
  | softReset =>
    simp only [cmdSoftReset]
    split
    case h_4 | h_5 => exact softResetClearing_capacities
    all_goals exact h.of_same (by simp)
  | reap | fetch | outcome =>
    simp only [cmdReap, cmdFetch, cmdOutcome]
    split <;> exact h
  | snapshot =>
    simp only [cmdSnapshot]
    split <;> exact h
  | causes | acknowledge | setMask => exact h

/-- A command handed over (R168, R169). -/
theorem deliver_capacities {code : Byte} {p : List Byte} (h : KeepsCapacities s₀ s) :
    KeepsCapacities s₀ (deliver code p s) := by
  have answered : KeepsCapacities s₀ (answerTo code p s).1 := by
    simp only [answerTo]
    split
    · exact ownerAction_capacities h
    · exact h
  simp only [deliver]
  split <;> exact answered

/-- A DATA write, in every phase of the port. -/
theorem dataWrite_capacities {b : Byte} (h : KeepsCapacities s₀ s) :
    KeepsCapacities s₀ (dataWrite b s) := by
  simp only [dataWrite]
  split
  · simp only [commandByte]
    split
    · exact h
    all_goals exact deliver_capacities h
  · simp only [parameterByte]
    split
    · exact deliver_capacities h
    · exact h
  · simp only [payloadByte]
    split
    · rename_i i _
      split
      · exact askArbiter_capacities (queueAtTail_capacities (s := placePayloadByte i b s) h)
      · exact h
    · exact h
  all_goals exact h.of_same (by simp)

/-- A DATA read, in every phase of the port. -/
theorem dataRead_capacities (h : KeepsCapacities s₀ s) : KeepsCapacities s₀ (dataRead s) := by
  simp only [dataRead]
  split
  · simp only [resultByte, resultRead, fetchResultRead]
    split
    · split
      · exact h
      · split
        · exact reapRead_capacities h
        · split
          · exact h
          · split
            · exact removeHeadRecord_capacities h
            · exact h
        · exact outcomeRead_capacities h
        · exact h
    · exact h
  · simp only [payloadRead]
    split
    · exact removeHeadRecord_capacities h
    · exact h
  all_goals exact h.of_same (by simp)

/-- ABANDON. -/
theorem abandon_capacities (h : KeepsCapacities s₀ s) : KeepsCapacities s₀ (abandon s) := by
  simp only [abandon]
  split
  case h_3 => exact abandonSend_capacities h
  case h_4 => split <;> exact h
  all_goals exact h

/-- BUSY_END. -/
theorem busyEnd_capacities (h : KeepsCapacities s₀ s) : KeepsCapacities s₀ (busyEnd s) := by
  simp only [busyEnd]
  split
  · split
    · exact abandonSend_capacities h
    · exact h
  · split <;> exact h
  · exact h

/-- A whole command, in every phase of the port. -/
theorem giveCommand_capacities {code : Byte} {p : List Byte} (h : KeepsCapacities s₀ s) :
    KeepsCapacities s₀ (giveCommand code p s) := by
  have written (bytes : List Byte) : ∀ t : State, KeepsCapacities s₀ t →
      KeepsCapacities s₀ (bytes.foldl (fun t b => dataWrite b t) t) := by
    induction bytes with
    | nil => exact fun _ ht => ht
    | cons b rest ih => exact fun _ ht => ih _ (dataWrite_capacities ht)
  simp only [giveCommand]
  split
  · exact deliver_capacities h
  · exact written _ _ h

end Kept

/-! ### One action, one period, one step -/

/-- An action keeps the capacities if its change does. -/
theorem act_keepsCapacities {change : State → State} {s t : State}
    (hc : KeepsCapacities s s → KeepsCapacities s (change s)) (e : act change s = .next t) :
    KeepsCapacities s t := by
  simp only [act] at e
  split at e
  · obtain rfl := Host.Outcome.next.inj e
    exact hc (.refl s)
  · obtain rfl := Host.Outcome.next.inj e
    exact .refl s

/-- An action on the bus keeps the capacities if its change does. -/
theorem actOnBus_keepsCapacities {change : State → State} {s t : State}
    (hc : KeepsCapacities s s → KeepsCapacities s (change s))
    (e : actOnBus change s = .next t) : KeepsCapacities s t := by
  refine act_keepsCapacities (fun h => ?_) e
  split
  · exact hc h
  · exact h

/-- An action on an edge keeps the capacities if its change does. -/
theorem actOnLine_keepsCapacities {note : PinLevels → PinLevels} {change : State → State}
    {s t : State} (hc : KeepsCapacities s s → KeepsCapacities s (change s))
    (e : actOnLine note change s = .next t) : KeepsCapacities s t := by
  refine act_keepsCapacities (fun h => ?_) e
  split
  · exact hc h
  · exact h

/-- A period of the clock moves timers and places events in the queue of commands. -/
theorem tick_keepsCapacities (s : State) : KeepsCapacities s (tick s) := by
  simp only [tick]
  split <;> exact .refl s

/-- Every command keeps the capacities. -/
theorem exec_keepsCapacities {c : Instr} {s t : State} (e : exec c s = .next t) :
    KeepsCapacities s t := by
  cases c with
  | commandByteWrite b | parameterByteWrite b | payloadByteWrite b =>
    exact act_keepsCapacities dataWrite_capacities e
  | resultByteRead | payloadByteRead => exact act_keepsCapacities dataRead_capacities e
  | busyEnd => exact act_keepsCapacities busyEnd_capacities e
  | abandon b => exact act_keepsCapacities abandon_capacities e
  | protocolError a =>
    cases a with
    | write b => exact act_keepsCapacities dataWrite_capacities e
    | read => exact act_keepsCapacities dataRead_capacities e
  | configure | setGroup | join | leave | send | withdraw | reap | fetch | discard | openRendezvous
  | arm | cancel | outcome | causes | acknowledge | setMask | snapshot | softReset =>
    exact act_keepsCapacities giveCommand_capacities e
  | armPinEdge =>
    refine act_keepsCapacities (fun h => ?_) e
    simp only [armPinEdge]
    split
    · exact h
    · exact applyArm_capacities h
  | firePulseEnd =>
    refine act_keepsCapacities (fun h => ?_) e
    simp only [firePulseEnd]
    split <;> exact h
  | deadlineExpiry => exact act_keepsCapacities deadlineExpiry_capacities e
  | agedFlagSet place => exact act_keepsCapacities agedFlagSet_capacities e
  | left => exact act_keepsCapacities left_capacities e
  | joinAbandoned => exact act_keepsCapacities joinAbandoned_capacities e
  | resetAssert =>
    simp only [exec, execResetAssert] at e
    split at e
    · obtain rfl := Host.Outcome.next.inj e
      exact .refl s
    · obtain rfl := Host.Outcome.next.inj e
      exact powerOn_capacities
  | resetRelease straps =>
    simp only [exec, execResetRelease] at e
    split at e
    · obtain rfl := Host.Outcome.next.inj e
      exact .refl s
    · obtain rfl := Host.Outcome.next.inj e
      exact powerOn_capacities
  | lossOfPower =>
    obtain rfl := Host.Outcome.next.inj e
    exact powerOn_capacities
  | ownAssertionSensed =>
    simp only [exec, execOwnAssertionSensed] at e
    exact actOnLine_keepsCapacities ownAssertionSensed_capacities e
  | ownReleaseSensed req =>
    simp only [exec, execOwnReleaseSensed] at e
    exact actOnLine_keepsCapacities ownReleaseSensed_capacities e
  | busIdleSensed =>
    simp only [exec, execBusIdleSensed] at e
    exact actOnLine_keepsCapacities busIdleSensed_capacities e
  | reqSensed =>
    simp only [exec, execReqSensed] at e
    exact actOnLine_keepsCapacities reqSensed_capacities e
  | breakEdge =>
    simp only [exec, execBreakEdge] at e
    exact actOnLine_keepsCapacities breakEdge_capacities e
  | brkRelease own req =>
    simp only [exec, execBrkRelease] at e
    exact actOnLine_keepsCapacities brkRelease_capacities e
  | participationBegin req trg =>
    simp only [exec, execParticipationBegin] at e
    exact actOnLine_keepsCapacities participationBegin_capacities e
  | trgReleaseSensed =>
    simp only [exec, execTrgReleaseSensed] at e
    refine actOnLine_keepsCapacities (fun h => ?_) e
    simp only [trgReleaseSensed]
    (repeat' split) <;> exact h
  | take b => exact actOnBus_keepsCapacities take_capacities e
  | observe b => exact actOnBus_keepsCapacities observe_capacities e
  | offerReleaseSensed => exact actOnBus_keepsCapacities offerReleaseSensed_capacities e
  | noListener => exact actOnBus_keepsCapacities noListener_capacities e
  | completionWindowEnd => exact actOnBus_keepsCapacities completionWindowEnd_capacities e
  | arbitrationDecision d => exact actOnBus_keepsCapacities arbitrationDecision_capacities e
  | wonHoldEnd => exact actOnBus_keepsCapacities wonHoldEnd_capacities e
  | roundGapExpiry => exact actOnBus_keepsCapacities roundGapExpiry_capacities e
  | fireDelayEnd => exact actOnBus_keepsCapacities fireDelayEnd_capacities e
  | clearBreakClassification =>
    exact actOnBus_keepsCapacities clearBreakClassification_capacities e
  | talkerReadySensed =>
    refine actOnBus_keepsCapacities (fun h => ?_) e
    simp only [talkerReadySensed, supplyByte, handOffered, cancelHeader, openFinalAtTalker,
      cancelFinal]
    (repeat' split) <;> exact h
  | readbackCompare b =>
    refine actOnBus_keepsCapacities (fun h => h.of_same ?_) e
    simp only [readbackCompare, clashFound]
    (repeat' split) <;> simp [handOutcome]
  | stallTimerExpiry =>
    refine actOnBus_keepsCapacities (fun h => h.of_same ?_) e
    simp only [stallTimerExpiry]
    (repeat' split) <;> simp [handOutcome]
  | offerAssert | pendReleaseSensed | ownHoldEnd | silenceTimerExpiry | breakGuardEnd
  | breakPulseEnd | bidLineChange | clearBreakDelayEnd =>
    exact actOnBus_keepsCapacities (fun h => h.of_same (by simp)) e

end Sys2Proof.Machine

open Sys2Proof Sys2Proof.Machine

/-- Settles O57: one lemma per operation, from the record that joins a queue and the descriptor that is replaced; a command's action is its operations, and a period of the clock moves none of what is counted. -/
theorem stepKeepsCapacities : Obligations.StepKeepsCapacities := by
  have kept {s t : State} (e : step s = .next t) : KeepsCapacities s t := by
    simp only [step] at e
    split at e
    · have taken := exec_keepsCapacities e
      exact taken
    · obtain rfl := Host.Outcome.next.inj e
      exact tick_keepsCapacities s
  exact ⟨fun s t h e => ⟨(kept e).1 h.1, (kept e).2.1 h.2⟩, fun s t h e => (kept e).2.2 h⟩
end

section
/-! The outcome queue (R85, R86). -/

namespace Sys2Proof.Machine

open Sys2Proof

/-- A full outcome queue loses its oldest record, which is counted, and a read of it removes nothing any more (R86). -/
theorem addOutcome_full {s : State} (h : s.rdv.outcomes.length = 4) (r : OutcomeRecord) :
    addOutcome r s = { s with
      rdv.outcomes := s.rdv.outcomes.drop 1 ++ [r]
      rdv.reading := false
      cause.counters.outcomesLost := countUp s.cause.counters.outcomesLost } := by
  simp [addOutcome, h, countOutcomeLost]

end Sys2Proof.Machine

open Sys2Proof Sys2Proof.Machine

/-- Settles O52: by whether the queue has a place free. -/
theorem outcomeQueueDropsItsOldest : Obligations.OutcomeQueueDropsItsOldest :=
  fun r _ => ⟨fun h => addOutcome_joins h r, fun h => addOutcome_full h r⟩
end

section
/-! The host's OPEN, CANCEL and ARM (R57, R63, R64, R69, R101). -/

namespace Sys2Proof.Machine

open Sys2Proof

/-! ### OPEN and CANCEL (R57, R69) -/

/-- A frame placed in the slot is QUEUED there, and the arbiter is told (R101). -/
theorem placeSlotFrame_eq (kind : SlotKind) (s : State) :
    placeSlotFrame kind s = askArbiter { s with
      tm.slot := some { state := .queued, kind := kind, attempts := 0, removal := false } } := rfl

/-- OPEN outside ONLINE. -/
theorem cmdOpen_offline {s : State} (h : s.ctl.state ≠ .online) (group tag high low : Byte) :
    cmdOpen group tag high low s = (s, statusReply .badState) := by
  simp [cmdOpen, h]

/-- OPEN to an address that is neither a group nor broadcast. -/
theorem cmdOpen_badAddress {group : Byte} {s : State} (h : s.ctl.state = .online)
    (ha : isRendezvousAddress group = false) (tag high low : Byte) :
    cmdOpen group tag high low s = (s, statusReply .badParam) := by
  simp [cmdOpen, h, ha]

/-- OPEN while a view or the slot is in use. -/
theorem cmdOpen_busy {group : Byte} {s : State} (h : s.ctl.state = .online)
    (ha : isRendezvousAddress group = true) (hb : s.rdv.view.state ≠ .none ∨ s.tm.slot ≠ none)
    (tag high low : Byte) :
    cmdOpen group tag high low s = (s, statusReply .rdvBusy) := by
  have busy : s.rdv.view.state ≠ .none ∨ s.tm.slot.isSome :=
    hb.imp_right Option.isSome_iff_ne_none.2
  simp only [cmdOpen, h, ha, busy]
  rfl

/-- OPEN accepted. -/
theorem cmdOpen_places {group : Byte} {s : State} (h : s.ctl.state = .online)
    (ha : isRendezvousAddress group = true) (hv : s.rdv.view.state = .none)
    (hs : s.tm.slot = none) (tag high low : Byte) :
    cmdOpen group tag high low s =
      (placeSlotFrame (.openFrame group tag (high ++ low)) s, statusReply .ok) := by
  simp [cmdOpen, h, ha, hv, hs, word16]

/-- CANCEL outside ONLINE. -/
theorem cmdCancel_offline {s : State} (h : s.ctl.state ≠ .online) :
    cmdCancel s = (s, statusReply .badState) := by
  simp [cmdCancel, h]

/-- CANCEL without an open view, and at one that a clear break closes. -/
theorem cmdCancel_notMember {s : State} (h : s.ctl.state = .online)
    (hv : (s.rdv.view.state ≠ .waiting ∧ s.rdv.view.state ≠ .armed) ∨ s.rdv.view.closing = true) :
    cmdCancel s = (s, statusReply .notMember) := by
  have refused : (!viewOpen s.rdv.view || s.rdv.view.closing) = true := by
    rcases hv with ⟨hw, ha⟩ | hc
    · simp [viewOpen, hw, ha]
    · simp [hc]
  simp [cmdCancel, h, refused]

/-- CANCEL of an open view is placed or merged. -/
theorem cmdCancel_places {group tag : Byte} {s : State} (h : s.ctl.state = .online)
    (hv : s.rdv.view.state = .waiting ∨ s.rdv.view.state = .armed)
    (hc : s.rdv.view.closing = false) (hg : s.rdv.view.group = some group)
    (ht : s.rdv.view.tag = some tag) :
    cmdCancel s = (placeCancel group tag s, statusReply .ok) := by
  simp [cmdCancel, h, viewOpen_iff.2 hv, hc, hg, ht]

/-- A CANCEL for a view is placed in the EMPTY slot. -/
theorem placeCancel_empty {s : State} (hs : s.tm.slot = none) (group tag : Byte) :
    placeCancel group tag s = placeSlotFrame (.cancelFrame group tag) s := by
  simp [placeCancel, hs]

/-- A CANCEL for a view merges with what the slot holds (R69). -/
theorem placeCancel_merges {s : State} (hs : s.tm.slot ≠ none) (group tag : Byte) :
    placeCancel group tag s = s := by
  obtain ⟨f, hf⟩ := Option.ne_none_iff_exists'.1 hs
  simp [placeCancel, hf]

/-! ### ARM (R63, R64) -/

/-- A view that ARM arms (R63). -/
theorem armResult_arms {s : State} (hw : s.rdv.view.state = .waiting)
    (hf : s.rdv.view.freeze = false) (hc : s.rdv.view.closing = false) :
    armResult s = .arms := by
  simp [armResult, hw, hf, hc]

/-- A view that takes an ARM as pending: frozen, or CANCELLING while it holds TRG (R63). -/
theorem armResult_defers {s : State}
    (h : (s.rdv.view.state = .waiting ∧ s.rdv.view.freeze = true ∧ s.rdv.view.closing = false) ∨
      (s.rdv.view.state = .cancelling ∧ s.line.drive.trg = true)) : armResult s = .defers := by
  rcases h with ⟨hw, hf, hc⟩ | ⟨hv, ht⟩
  · simp [armResult, hw, hf, hc]
  · simp [armResult, hv, ht]

/-- Every other view refuses an ARM (R63). -/
theorem armResult_refused {s : State}
    (h : (s.rdv.view.state = .waiting ∧ s.rdv.view.closing = true) ∨
      (s.rdv.view.state = .cancelling ∧ s.line.drive.trg = false) ∨
      s.rdv.view.state = .none ∨ s.rdv.view.state = .provisional ∨
      s.rdv.view.state = .armed ∨ s.rdv.view.state = .observing) : armResult s = .refused := by
  rcases h with ⟨hw, hc⟩ | ⟨hv, ht⟩ | hv | hv | hv | hv
  · simp [armResult, hw, hc]
  · simp [armResult, hv, ht]
  all_goals simp [armResult, hv]

/-- Outside a soft reset an ARM arms the view and releases TRG (R63, R81). -/
theorem applyArm_arms {s : State} (h : armResult s = .arms)
    (hres : s.ctl.resetInProgress = false) :
    applyArm s = { s with rdv.view.state := .armed, line.drive.trg := false } := by
  simp [applyArm, h, releaseTrg_eq hres, setView]

/-- A deferred ARM is noted in the view. -/
theorem applyArm_defers {s : State} (h : armResult s = .defers) :
    applyArm s = { s with rdv.view.pendingArm := true } := by
  simp [applyArm, h, setView]

/-- A refused ARM changes nothing. -/
theorem applyArm_refused {s : State} (h : armResult s = .refused) : applyArm s = s := by
  simp [applyArm, h]

/-- ARM outside ONLINE. -/
theorem cmdArm_offline {s : State} (h : s.ctl.state ≠ .online) :
    cmdArm s = (s, statusReply .badState) := by
  simp [cmdArm, h]

/-- The status of an ARM given in ONLINE, by what it finds at the view (R63). -/
def armStatus : ArmResult → Status
  | .arms => .ok
  | .defers => .deferred
  | .refused => .badState

/-- ARM in ONLINE acts on the view and answers what it found. -/
theorem cmdArm_online {s : State} (h : s.ctl.state = .online) :
    cmdArm s = (applyArm s, statusReply (armStatus (armResult s))) := by
  cases hr : armResult s with
  | arms | defers => simp [cmdArm, h, hr, armStatus]
  | refused => simp [cmdArm, h, hr, applyArm_refused hr, armStatus]

/-- A rising edge on the ARM pin acts as ARM does, outside a soft reset (R64, R163). -/
theorem armPinEdge_eq {s : State} (h : s.ctl.resetInProgress = false) :
    armPinEdge s = applyArm s := by
  simp [armPinEdge, h]

/-- During a soft reset the ARM pin is ignored (R163). -/
theorem armPinEdge_ignored {s : State} (h : s.ctl.resetInProgress = true) :
    armPinEdge s = s := by
  simp [armPinEdge, h]

end Sys2Proof.Machine

open Sys2Proof Sys2Proof.Machine

/-- Settles O21: the tests of OPEN and of CANCEL in their order, then the placing or the merge. -/
theorem openAndCancelPlaceAFrame : Obligations.OpenAndCancelPlaceAFrame := by
  refine ⟨fun group tag high low s hp => ?_, fun s hp => ?_⟩
  · have answers {t : State} {st : Status}
        (e : cmdOpen group tag high low s = (t, statusReply st)) :
        NextIs (.openRendezvous group tag high low) s
          { t with port := HostPort.busyWith (some 0x30) (statusReply st) } :=
      nextIs_of_command rfl hp e (by simp [statusReply]) rfl
    exact ⟨fun ho => answers (cmdOpen_offline ho _ _ _ _),
      fun ho ha => answers (cmdOpen_badAddress ho ha _ _ _),
      fun ho ha hb => answers (cmdOpen_busy ho ha hb _ _ _),
      fun ho ha hv hs => answers (cmdOpen_places ho ha hv hs _ _ _)⟩
  · have answers {t : State} {st : Status} (e : cmdCancel s = (t, statusReply st)) :
        NextIs .cancel s { t with port := HostPort.busyWith (some 0x32) (statusReply st) } :=
      nextIs_of_command rfl hp e (by simp [statusReply]) rfl
    refine ⟨fun ho => answers (cmdCancel_offline ho),
      fun ho hv => answers (cmdCancel_notMember ho hv), fun group tag ho hv hc hg ht => ?_⟩
    have places := cmdCancel_places ho hv hc hg ht
    refine ⟨fun f hf => ?_, fun hs => ?_⟩
    · rw [placeCancel_merges (by simp [hf])] at places
      exact answers places
    · rw [placeCancel_empty hs, placeSlotFrame_eq] at places
      exact answers places

/-- Settles O22: what ARM finds at the view, by command and by pin. -/
theorem armByView : Obligations.ArmByView := by
  refine ⟨fun s hp => ?_, fun s hrun => ?_⟩
  · have answers {t : State} {st : Status} (e : cmdArm s = (t, statusReply st)) :
        NextIs .arm s { t with port := HostPort.busyWith (some 0x31) (statusReply st) } :=
      nextIs_of_command rfl hp e (by simp [statusReply]) rfl
    refine ⟨fun ho => answers (cmdArm_offline ho), fun ho hres hw hf hc => ?_, fun ho hv => ?_,
      fun ho hv => ?_⟩
    · have finds := armResult_arms hw hf hc
      exact answers (by rw [cmdArm_online ho, applyArm_arms finds hres, finds, armStatus])
    · have finds := armResult_defers hv
      exact answers (by rw [cmdArm_online ho, applyArm_defers finds, finds, armStatus])
    · have finds := armResult_refused hv
      exact answers (by rw [cmdArm_online ho, applyArm_refused finds, finds, armStatus])
  · have edge {u : State} := nextIs_of_change (c := .armPinEdge) (u := u) rfl hrun
    refine ⟨fun hres hw hf hc => edge ?_, fun hres hv => edge ?_, fun hv => edge ?_⟩
    · exact (armPinEdge_eq hres).trans (applyArm_arms (armResult_arms hw hf hc) hres)
    · exact (armPinEdge_eq hres).trans (applyArm_defers (armResult_defers hv))
    · cases hres : s.ctl.resetInProgress with
      | true => exact armPinEdge_ignored hres
      | false =>
        refine (armPinEdge_eq hres).trans (applyArm_refused (armResult_refused ?_))
        rcases hv with h | hn | hpr | ha | ho | hw | hc
        · exact absurd (hres.symm.trans h) (by decide)
        · exact .inr (.inr (.inl hn))
        · exact .inr (.inr (.inr (.inl hpr)))
        · exact .inr (.inr (.inr (.inr (.inl ha))))
        · exact .inr (.inr (.inr (.inr (.inr ho))))
        · exact .inl hw
        · exact .inr (.inl hc)
end

section
/-! Fire and deadline (R56, R65–R67, R75–R77, R195). -/

namespace Sys2Proof.Machine

open Sys2Proof

/-! ### The release of TRG, the fire and its pulse (R56, R65–R67) -/

/-- The sensed release of TRG sets an ARMED view's fire pending, or held under BRK (R65, R66). -/
theorem trgReleaseSensed_armed {s : State} (hv : s.rdv.view.state = .armed)
    (hc : s.rdv.view.closing = false) (hf : s.rdv.view.fire = .clear) :
    trgReleaseSensed s = { s with
      line.sense.trg := false
      line.trgDelay := some 0
      rdv.view.fire :=
        if s.line.sense.brk then .held s.ctl.clock else .pending s.ctl.clock 0 } := by
  simp [trgReleaseSensed, hv, hc, hf, setView]

/-- The sensed release of TRG ends an OBSERVING view (R67). -/
theorem trgReleaseSensed_observing {s : State} (hv : s.rdv.view.state = .observing) :
    trgReleaseSensed s = { s with
      line.sense.trg := false, line.trgDelay := some 0, rdv.view := View.absent } := by
  simp [trgReleaseSensed, hv, setView]

/-- Every other view ignores the edge; the delay of R68 runs all the same. -/
theorem trgReleaseSensed_ignored {s : State}
    (h : s.rdv.view.state = .none ∨ s.rdv.view.state = .provisional ∨
      s.rdv.view.state = .waiting ∨ s.rdv.view.state = .cancelling ∨
      (s.rdv.view.state = .armed ∧ s.rdv.view.closing = true)) :
    trgReleaseSensed s = { s with line.sense.trg := false, line.trgDelay := some 0 } := by
  rcases h with hv | hv | hv | hv | ⟨hv, hc⟩
  case inr.inr.inr.inr => simp [trgReleaseSensed, hv, hc]
  all_goals simp [trgReleaseSensed, hv]

/-- At the end of its delay a pending fire is carried out (R65). -/
theorem fireDelayEnd_fires {sensedAt : ClockTime} {n : Nat} {s : State}
    (h : s.rdv.view.fire = .pending sensedAt n) :
    fireDelayEnd s = closeView .fired sensedAt { s with rdv.firePulse := some 0 } := by
  simp [fireDelayEnd, h, fire]

/-- The pulse that has run its 1 µs ends (R56). -/
theorem firePulseEnd_ends {n : Nat} {s : State} (hn : s.rdv.firePulse = some n) (h : 20 ≤ n) :
    firePulseEnd s = { s with rdv.firePulse := none } := by
  have run : reached s.rdv.firePulse Config.firePulse = true := reached_iff.2 ⟨n, hn, h⟩
  simp [firePulseEnd, run]

/-- A pulse begun anew runs on (R56). -/
theorem firePulseEnd_early {n : Nat} {s : State} (hn : s.rdv.firePulse = some n) (h : n < 20) :
    firePulseEnd s = s := by
  have runs : reached s.rdv.firePulse Config.firePulse = false :=
    reached_below fun m hm => by
      obtain rfl := Option.some.inj (hn.symm.trans hm)
      exact h
  simp [firePulseEnd, runs]

/-! ### The deadline (R75, R76) -/

/-- The deadline timer of a view has expired here: it is stopped, and the view notes it (R76). -/
def deadlinePassed (s : State) : State :=
  { s with rdv.view.timer := none, rdv.view.expiredHere := true }

/-- The expiry at an open view without a pending fire: the automatic CANCEL (R76). -/
theorem deadlineExpiry_cancels {group tag : Byte} {s : State} (hr : s.rdv.view.timer ≠ none)
    (hg : s.rdv.view.group = some group) (ht : s.rdv.view.tag = some tag)
    (hv : s.rdv.view.state = .waiting ∨ s.rdv.view.state = .armed)
    (hf : s.rdv.view.fire = .clear) :
    deadlineExpiry s = placeCancel group tag (deadlinePassed s) := by
  rcases hv with hv | hv <;>
    simp [deadlineExpiry, Option.isNone_iff_eq_none, hr, hv, hf, hg, ht, setView, deadlinePassed]

/-- The expiry at an ARMED view with its fire pending or held places no CANCEL (R195). -/
theorem deadlineExpiry_firing {s : State} (hr : s.rdv.view.timer ≠ none)
    (hv : s.rdv.view.state = .armed) (hf : s.rdv.view.fire ≠ .clear) :
    deadlineExpiry s = deadlinePassed s := by
  simp [deadlineExpiry, Option.isNone_iff_eq_none, hr, hv, hf, setView, deadlinePassed]

/-- The expiry at a CANCELLING view is remembered until its CANCEL ends (R73, R76). -/
theorem deadlineExpiry_cancelling {s : State} (hr : s.rdv.view.timer ≠ none)
    (hv : s.rdv.view.state = .cancelling) :
    deadlineExpiry s = { deadlinePassed s with rdv.view.expiredCancelling := true } := by
  simp [deadlineExpiry, Option.isNone_iff_eq_none, hr, hv, setView, deadlinePassed]

end Sys2Proof.Machine

open Sys2Proof Sys2Proof.Machine

/-- Settles O50: the edge by the view's state, the fire as the close of the view, the pulse by its timer. -/
theorem armedViewFires : Obligations.ArmedViewFires := by
  intro group tag role s hb
  refine ⟨fun hv hc hf => nextIs_trgReleaseSensed hb (trgReleaseSensed_armed hv hc hf),
    fun hv => nextIs_trgReleaseSensed hb (trgReleaseSensed_observing hv),
    fun hv => nextIs_trgReleaseSensed hb (trgReleaseSensed_ignored hv),
    fun at' n hf hg ht hr hres hlen => ?_,
    fun n hn => ⟨fun h => nextIs_of_change rfl hb.1 (firePulseEnd_ends hn h),
      fun h => nextIs_of_change rfl hb.1 (firePulseEnd_early hn h)⟩⟩
  refine nextIs_of_busChange rfl hb ((fireDelayEnd_fires hf).trans ?_)
  exact closeView_eq (s := { s with rdv.firePulse := some 0 }) hg ht hr hres hlen .fired at'

/-- Settles O51: the expiry by the view's state, and the CANCEL by the slot. -/
theorem deadlineExpiryByView : Obligations.DeadlineExpiryByView := by
  intro group tag s hrun htimer hg ht
  have expires {u : State} := nextIs_of_change (c := .deadlineExpiry) (u := u) rfl hrun
  refine ⟨fun hv hf => ?_, fun hv hf => expires (deadlineExpiry_firing htimer hv hf),
    fun hv => expires (deadlineExpiry_cancelling htimer hv)⟩
  have cancels := deadlineExpiry_cancels htimer hg ht hv hf
  exact ⟨fun hs => expires (cancels.trans (placeCancel_empty (s := deadlinePassed s) hs _ _)),
    fun hs => expires (cancels.trans (placeCancel_merges (s := deadlinePassed s) hs _ _))⟩
end

section
/-! An OPEN heard at a station other than its talker: its final byte and its end (R55, R58–R62, R75). -/

namespace Sys2Proof.Machine

open Sys2Proof

/-! ### The final byte (R45, R59) -/

/-- The third value of a GOOD OPEN, with LAST, is its final byte. -/
theorem parseByte_openFinal {adr src tag high : Byte} {f : FrameState}
    (hp : f.position = .payload) (hv : f.verdict = some .good) (ht : f.type = some typeOpen)
    (hn : f.payloadCount = some 2) (ha : f.address = some adr) (hs : f.source = some src)
    (htag : f.tag = some tag) (hh : f.deadlineHigh = some high) (low : Byte)
    (number : StationNumber) (subscriptions : Vector (Option Policy) 16) :
    parseByte number subscriptions { data := low, kind := false, last := true } f =
      ({ f with payloadCount := some 3, deadlineLow := some low },
        .openFinal adr src tag (high ++ low)) := by
  rw [parseByte_open (.inl hp) hv ht, parseOpen_final rfl hn rfl]
  simp [FrameState.withOpenValue, hn, word16, ha, hs, htag, hh]

/-- An ONLINE station without a view that takes the final byte is a PROVISIONAL member (R59). -/
theorem openFinalElsewhere_member {s : State} (ho : s.ctl.state = .online)
    (hv : s.rdv.view.state = .none) (address source tag : Byte) (deadline : Deadline) :
    openFinalElsewhere true address source tag deadline s = { s with
      line.sense.trg := true
      line.drive.trg := true
      rdv.view := { View.absent with
        state := .provisional, role := some .member, tag := some tag, group := some address,
        deadline := some deadline } } := by
  simp [openFinalElsewhere, ho, hv, setView, assertTrg]

/-- Any other station that hears the final byte notes the open (R59). -/
theorem openFinalElsewhere_notes {taken : Bool} {s : State}
    (h : taken = true → s.ctl.state ≠ .online ∨ s.rdv.view.state ≠ .none)
    (address source tag : Byte) (deadline : Deadline) :
    openFinalElsewhere taken address source tag deadline s = { s with
      line.sense.trg := true
      rdv.noted := some { address, source, tag, deadline } } := by
  refine if_neg ?_
  rintro ⟨ht, ho, hv⟩
  rcases h ht with h | h
  · exact h ho
  · exact h hv

/-! ### The end of the frame (R58, R60–R62) -/

/-- The rendezvous unit behind the end of an OPEN: this view, and no noted open. -/
def openEnded (v : View) (s : State) : State :=
  { s with rdv.noted := none, rdv.view := v }

/-- The view that the end of a well-formed OPEN makes: a PROVISIONAL one opens, a noted open makes one in NONE observe, any other stays (R58, R60). -/
def viewAfterOpen (s : State) : View :=
  if s.rdv.view.state = .provisional then viewOpened s.rdv.view s.ctl.clock
  else
    match s.rdv.noted with
    | some n =>
      if s.rdv.view.state = .none then
        { View.absent with
          state := .observing, tag := some n.tag, group := some n.address, tagKnown := true }
      else s.rdv.view
    | none => s.rdv.view

/-- The end of a well-formed OPEN: the view follows, and a QUEUED own OPEN is discarded (R60). -/
theorem openCompletion_eq (s : State) :
    openCompletion s = discardLostOpen (openEnded (viewAfterOpen s) s) := by
  simp only [openCompletion, viewAfterOpen]
  split
  · rfl
  · cases s.rdv.noted with
    | none => rfl
    | some n =>
      simp only
      split <;> rfl

/-- Without a QUEUED OPEN of its own a station discards nothing. -/
theorem discardLostOpen_without {s : State}
    (h : ∀ f group tag deadline, s.tm.slot = some f → f.state = .queued →
      f.kind ≠ .openFrame group tag deadline) : discardLostOpen s = s := by
  simp only [discardLostOpen]
  split
  · rename_i f hs
    split
    · rename_i group tag deadline hq hk
      exact absurd hk (h f group tag deadline hs hq)
    · rfl
  · rfl

/-- A QUEUED OPEN of its own leaves the slot with a record NOT_OPENED, LOST (R60, R62). -/
theorem discardLostOpen_discards {group tag : Byte} {deadline : Deadline} {f : SlotFrame}
    {s : State} (hs : s.tm.slot = some f) (hq : f.state = .queued)
    (hk : f.kind = .openFrame group tag deadline) :
    discardLostOpen s = notOpened group tag .lost (setSlot none s) := by
  simp [discardLostOpen, hs, hq, hk]

/-- An OPEN with an error or without its payload does not end GOOD (R45). -/
theorem endVerdict_open_bad {f : FrameState} (ht : f.type = some typeOpen)
    (h : f.verdict ≠ some .good ∨ f.payloadCount = some 0) : endVerdict f ≠ some .good := by
  by_cases hv : f.verdict = some .good
  · simp [endVerdict, hv, ht, h.resolve_left (absurd hv)]
  · simp [endVerdict, hv]

/-- A well-formed OPEN completes at the view. -/
theorem rendezvousCompletion_open {f : FrameState} (ht : f.type = some typeOpen)
    (h : endVerdict f = some .good) (s : State) : rendezvousCompletion f s = openCompletion s := by
  simp [rendezvousCompletion, ht, h]

/-- A malformed OPEN drops a noted open and no more (R61). -/
theorem rendezvousCompletion_open_bad {f : FrameState} (ht : f.type = some typeOpen)
    (h : endVerdict f ≠ some .good) (s : State) :
    rendezvousCompletion f s = { s with rdv.noted := none } := by
  simp [rendezvousCompletion, ht, h]

end Sys2Proof.Machine

open Sys2Proof Sys2Proof.Machine

/-- Settles O48: the final byte by who hears it; then the end of the frame at a listener that rests, by the view, the noted open and the slot. -/
theorem openMakesAMember : Obligations.OpenMakesAMember := by
  refine ⟨fun adr src tag high low s hb hr hp hv ht hn ha hs htag hh => ?_,
    fun adr src tag high low s hb hr hp hv ht hn ha hs htag hh => ?_,
    fun s hb hw hr hp ht hi => ?_⟩
  · intro taken
    have parses := parseByte_openFinal hp hv ht hn ha hs htag hh low s.ctl.number
      s.ctl.subscriptions
    have takes := take_hands parses hr (isDuplicateSource_payload (.inl hp) _ _)
    have heard : byteTaken { data := low, kind := false, last := true } s =
        { taken with line.sense.trg := s.line.sense.trg } := by
      rw [byteTaken_eq, byteObserved_eq parses]
      simp only [taken, hp]
    rw [heard] at takes
    refine ⟨fun ho hnone => ?_, fun hother => ?_⟩ <;>
      refine nextIs_of_busChange rfl hb (takes.trans ?_)
    · exact openFinalElsewhere_member (s := { taken with line.sense.trg := _ }) ho hnone _ _ _ _
    · exact openFinalElsewhere_notes (s := { taken with line.sense.trg := _ })
        (fun _ => hother) _ _ _ _
  · have parses := parseByte_openFinal hp hv ht hn ha hs htag hh low s.ctl.number
      s.ctl.subscriptions
    refine nextIs_of_busChange rfl hb ((observe_hands parses hr).trans ?_)
    refine (openFinalElsewhere_notes (s := byteObserved _ s) (taken := false) (by simp)
      _ _ _ _).trans ?_
    rw [byteObserved_eq parses]
  · intro ended opensAnd
    have rests {u : State} := nextIs_listenerRests (u := u) hb hw hr hi (by rw [ht]; decide)
    refine ⟨fun n hgood hn => ?_, fun hbad => ?_⟩
    · have completes : rendezvousCompletion s.fe.frame s = _ :=
        (rendezvousCompletion_open ht (endVerdict_good hgood hn) s).trans (openCompletion_eq s)
      have opens : opensAnd (frameEnded (openEnded (viewAfterOpen s) s)) := by
        refine ⟨fun hslot => ?_, fun f group tag deadline hslot hq hk hlen => ?_⟩
        · rw [discardLostOpen_without (s := openEnded _ s) hslot] at completes
          exact rests completes rfl
        · rw [discardLostOpen_discards (s := openEnded _ s) hslot hq hk,
            notOpened_eq (s := setSlot none (openEnded _ s)) hlen] at completes
          exact rests completes rfl
      refine ⟨fun hv => ?_, fun noted hv hnoted => ?_, fun hv => ?_⟩
      · rw [viewAfterOpen, if_pos hv] at opens
        exact opens
      · simp only [viewAfterOpen, hv, hnoted, reduceCtorEq, if_false, if_true] at opens
        exact opens
      · have stays : viewAfterOpen s = s.rdv.view := by
          rcases hv with ⟨hv, hnoted⟩ | ⟨hv, hv'⟩
          · simp [viewAfterOpen, hv, hnoted]
          · simp only [viewAfterOpen, hv, hv', if_false]
            split <;> rfl
        rw [stays] at opens
        exact opens
    · exact rests (rendezvousCompletion_open_bad ht (endVerdict_open_bad ht hbad) s) rfl
end

section
/-! The packet memory's contents stay in canonical form (R87): what writes no byte, and what writes through `Memory.write`. -/

namespace Sys2Proof.Machine

open Sys2Proof

/-! ### Operations that move blocks and write no byte (R88, R93–R97) -/

/-- A discarded record gives its blocks back as they are (R136). -/
@[simp] theorem receptionAbandonment_cells (s : State) :
    (receptionAbandonment s).mem.cells = s.mem.cells := by
  simp [receptionAbandonment]

/-- A record that is complete keeps its bytes where they lie (R133). -/
@[simp] theorem receptionCompletion_cells (f : FrameState) (s : State) :
    (receptionCompletion f s).mem.cells = s.mem.cells := by
  simp only [receptionCompletion]
  (repeat' split) <;> simp

/-- An abandonment that is handed on frees blocks at most. -/
@[simp] theorem handAbandonment_cells (s : State) :
    (handAbandonment s).mem.cells = s.mem.cells := by
  simp only [handAbandonment]
  split <;> simp

/-- A completion that is handed on queues a record at most. -/
@[simp] theorem handCompletion_cells (s : State) :
    (handCompletion s).mem.cells = s.mem.cells := by
  simp only [handCompletion]
  split <;> simp

/-- An abandoned frame frees blocks at most. -/
@[simp] theorem abandonFrame_cells (s : State) :
    (abandonFrame s).mem.cells = s.mem.cells := by
  simp only [abandonFrame]
  split <;> simp

/-- The withdrawal of a LAST byte abandons a frame at most (R11, log 42). -/
@[simp] theorem lastWithdrawn_cells (s : State) :
    (lastWithdrawn s).mem.cells = s.mem.cells := by
  simp only [lastWithdrawn]
  (repeat' split) <;> simp

/-- A release of OWN abandons a frame at most (R12). -/
@[simp] theorem ownReleaseSensed_cells (req : Bool) (s : State) :
    (ownReleaseSensed req s).mem.cells = s.mem.cells := by
  simp only [ownReleaseSensed, ownReleased]
  (repeat' split) <;> simp

/-- An idle bus returns a bid and abandons a frame at most (R21). -/
@[simp] theorem busIdleSensed_cells (s : State) :
    (busIdleSensed s).mem.cells = s.mem.cells := by
  simp only [busIdleSensed]
  (repeat' split) <;> simp

/-- The break edge at a listener abandons a frame at most (R17). -/
@[simp] theorem breakParticipant_cells (s : State) :
    (breakParticipant s).mem.cells = s.mem.cells := by
  simp [breakParticipant]

/-- The entry into OFFLINE or FAULTED frees blocks at most (R145). -/
@[simp] theorem leaveBus_cells (target : StationState) (reason : StationReason) (s : State) :
    (leaveBus target reason s).mem.cells = s.mem.cells := by
  simp only [leaveBus]
  split <;> simp

/-- LEFT writes no byte. -/
@[simp] theorem left_cells (s : State) : (left s).mem.cells = s.mem.cells := by
  simp only [left]
  split <;> simp

/-- JOIN_ABANDONED writes no byte. -/
@[simp] theorem joinAbandoned_cells (s : State) :
    (joinAbandoned s).mem.cells = s.mem.cells := by
  simp only [joinAbandoned]
  split <;> simp

/-- LEAVE writes no byte. -/
@[simp] theorem cmdLeave_cells (s : State) : (cmdLeave s).1.mem.cells = s.mem.cells := by
  simp only [cmdLeave, startLeaving, abandonJoin]
  (repeat' split) <;> simp

/-- The clearing of a soft reset frees every block with the bytes it holds (R164). -/
@[simp] theorem softResetClearing_cells (s : State) :
    (softResetClearing s).mem.cells = s.mem.cells := by
  simp only [softResetClearing]
  split <;> simp

/-- SOFT RESET writes no byte. -/
@[simp] theorem cmdSoftReset_cells (s : State) :
    (cmdSoftReset s).1.mem.cells = s.mem.cells := by
  simp only [cmdSoftReset]
  split <;> simp

/-- The release of BRK writes no byte (R19). -/
@[simp] theorem brkRelease_cells (own req : Bool) (s : State) :
    (brkRelease own req s).mem.cells = s.mem.cells := by
  simp only [brkRelease, releaseOrdinary]
  (repeat' split) <;> simp

/-- SEND takes blocks with the bytes they hold (R90). -/
@[simp] theorem cmdSend_cells (tag cls destination flags lengthHigh lengthLow : Byte)
    (s : State) :
    (cmdSend tag cls destination flags lengthHigh lengthLow s).1.mem.cells = s.mem.cells := by
  simp only [cmdSend, acceptSend]
  (repeat' split) <;> simp

/-! ### Bytes that a participant takes (R9, R128) -/

/-- An operation that writes no byte keeps the canonical form. -/
theorem MemoryCanonical.of_cells {s t : State} (h : MemoryCanonical s)
    (e : t.mem.cells = s.mem.cells) : MemoryCanonical t :=
  (congrArg Memory.wf e).trans h

section Kept

variable {s : State}

/-- The copies of a data byte are written, and no other event writes one (R40). -/
theorem handTaken_canonical {e : FrameEvent} (h : MemoryCanonical s) :
    MemoryCanonical (handTaken e s) := by
  cases e with
  | copies =>
    simp only [handTaken]
    split
    · exact receiveCopies_wf h
    · exact h
  | malformed =>
    refine h.of_cells ?_
    simp only [handTaken]
    split <;> simp
  | nothing => exact h
  | cancelHeader | openFinal | cancelFinal => exact h.of_cells (by simp [handTaken])

/-- A byte that is taken is handed on, unless its SOURCE is a duplicate (R53). -/
theorem takeByte_canonical {b : BusByte} (h : MemoryCanonical s) :
    MemoryCanonical (takeByte b s) := by
  simp only [takeByte, holdDuplicate]
  split
  · exact h.of_cells (by simp)
  · exact handTaken_canonical h

/-- TAKE. -/
theorem take_canonical {b : BusByte} (h : MemoryCanonical s) :
    MemoryCanonical (take b s) := by
  simp only [take]
  split
  · exact takeByte_canonical h
  all_goals exact h

/-- A participant that becomes ready may take the byte on offer (R9, R10). -/
theorem becomeReady_canonical (h : MemoryCanonical s) : MemoryCanonical (becomeReady s) := by
  simp only [becomeReady]
  split
  · split
    · exact takeByte_canonical h
    · exact h
  · exact h

/-- A freeing renews a refused request, whose copies are then written (R95, R129). -/
theorem freeBlocks_canonical {blocks : List Nat} (h : MemoryCanonical s) :
    MemoryCanonical (freeBlocks blocks s) := by
  cases blocks with
  | nil => exact h
  | cons b rest =>
    have returned : MemoryCanonical (returnToPool (b :: rest) s) := h
    exact becomeReady_canonical (renewRequest_wf returned)

/-- The removal of the head record frees its blocks and its slot (R126, R141). -/
theorem removeHeadRecord_canonical (h : MemoryCanonical s) :
    MemoryCanonical (removeHeadRecord s) := by
  simp only [removeHeadRecord]
  split
  · exact h
  · rename_i r rest _
    have freed : MemoryCanonical (freeBlocks r.blocks { s with rm.records := rest }) :=
      freeBlocks_canonical h
    split
    · exact becomeReady_canonical freed
    · exact freed

/-! ### Listeners (R6, R10, R11) -/

/-- A participant that narrows may become ready (R6). -/
theorem narrow_canonical (h : MemoryCanonical s) : MemoryCanonical (narrow s) := by
  simp only [narrow]
  split
  · refine becomeReady_canonical ?_
    split
    · exact h.of_cells (by simp)
    · exact h
  · exact h

/-- A participant that asserts PEND again narrows or becomes ready (R10). -/
theorem releaseTaken_canonical (h : MemoryCanonical s) : MemoryCanonical (releaseTaken s) := by
  rw [releaseTaken_eq]
  split
  · exact narrow_canonical h
  · exact becomeReady_canonical h

/-- OFFER_RELEASE_SENSED. -/
theorem offerReleaseSensed_canonical (h : MemoryCanonical s) :
    MemoryCanonical (offerReleaseSensed s) := by
  have withdrawn {t : State} (ht : MemoryCanonical t) :
      MemoryCanonical (if observedLast t then lastWithdrawn t else t) := by
    split
    · exact ht.of_cells (by simp)
    · exact ht
  simp only [offerReleaseSensed]
  split
  · exact h
  · exact releaseTaken_canonical (withdrawn h)
  · exact withdrawn h

/-- A participant may become ready at the end of a frame (R11). -/
theorem completeElsewhere_canonical (h : MemoryCanonical s) :
    MemoryCanonical (completeElsewhere s) := by
  have ended : MemoryCanonical (endFrameState (handCompletion s)) := h.of_cells (by simp)
  simp only [completeElsewhere]
  split
  · exact ended
  · exact becomeReady_canonical ended

/-! ### Attempts and their ends (R109–R119) -/

/-- A descriptor that is finished gives its blocks back (R112). -/
theorem finishDescriptor_canonical {i : Fin 16} {o : TxOutcome} (h : MemoryCanonical s) :
    MemoryCanonical (finishDescriptor i o s) := freeBlocks_canonical h

/-- The end of a descriptor's attempt queues it again or finishes it (R112, R113). -/
theorem endDescriptorAttempt_canonical {i : Fin 16} {o : TxOutcome} (h : MemoryCanonical s) :
    MemoryCanonical (endDescriptorAttempt i o s) := by
  simp only [endDescriptorAttempt]
  split
  case h_4 | h_5 =>
    split
    · exact h.of_cells (by simp)
    · exact finishDescriptor_canonical h
  all_goals exact finishDescriptor_canonical h

/-- The end of an attempt: a slot frame has no blocks to free. -/
theorem endAttempt_canonical {o : TxOutcome} {atSource : Bool} (h : MemoryCanonical s) :
    MemoryCanonical (endAttempt o atSource s) := by
  simp only [endAttempt]
  split
  · exact endDescriptorAttempt_canonical h
  · split
    · exact h.of_cells (by simp)
    · exact h
  · exact h

/-- The talker at rest again. -/
theorem leaveTalker_canonical (h : MemoryCanonical s) : MemoryCanonical (leaveTalker s) :=
  h.of_cells (by simp)

/-- NO_LISTENER. -/
theorem noListener_canonical (h : MemoryCanonical s) : MemoryCanonical (noListener s) := by
  simp only [noListener]
  split
  · split
    · exact h
    · exact leaveTalker_canonical (endAttempt_canonical (h.of_cells (by simp)))
  · exact h

/-- A frame that completes at its talker ends the attempt and goes to the rendezvous unit (R111). -/
theorem completeAtTalker_canonical (h : MemoryCanonical s) :
    MemoryCanonical (completeAtTalker s) := by
  have ended : MemoryCanonical (endAttempt (s.tm.handed.getD .sent) false s) :=
    endAttempt_canonical h
  exact ended.of_cells (by simp [completeAtTalker])

/-- COMPLETION_WINDOW_END. -/
theorem completionWindowEnd_canonical (h : MemoryCanonical s) :
    MemoryCanonical (completionWindowEnd s) := by
  simp only [completionWindowEnd]
  split
  · exact h
  · split
    · split
      · exact h
      · exact completeAtTalker_canonical h
    · exact h
    · exact completeElsewhere_canonical h

/-- The break edge at a talker ends the attempt, unless its frame is complete (R17). -/
theorem breakTalker_canonical (h : MemoryCanonical s) : MemoryCanonical (breakTalker s) := by
  simp only [breakTalker]
  split
  · exact h
  · exact endAttempt_canonical (h.of_cells (by simp))

/-- BREAK_EDGE. -/
theorem breakEdge_canonical (h : MemoryCanonical s) : MemoryCanonical (breakEdge s) := by
  simp only [breakEdge, breakRole]
  split
  · exact h
  · split
    · exact breakTalker_canonical (h.of_cells (by simp))
    all_goals exact h.of_cells (by simp)

/-! ### The host's commands (R102–R174) -/

/-- A descriptor that becomes FREE gives its blocks back (R93). -/
theorem freeDescriptor_canonical {i : Fin 16} (h : MemoryCanonical s) :
    MemoryCanonical (freeDescriptor i s) := freeBlocks_canonical h

/-- SEND's data phase abandoned. -/
theorem abandonSend_canonical (h : MemoryCanonical s) : MemoryCanonical (abandonSend s) := by
  simp only [abandonSend]
  split
  · exact freeDescriptor_canonical h
  · exact h

/-- Every command of the host at its owner: a byte is written only where the blocks that WITHDRAW or DISCARD frees let a waiting participant go on (R95). -/
theorem ownerAction_canonical {c : HostCommand} {p : List Byte} (h : MemoryCanonical s) :
    MemoryCanonical (ownerAction c p s).1 := by
  simp only [ownerAction]
  cases c with
  | withdraw =>
    simp only [cmdWithdraw]
    split
    · exact h
    · split
      · exact freeDescriptor_canonical (s := leaveQueue _ s) h
      all_goals exact h
  | discard =>
    simp only [cmdDiscard]
    split
    · exact h
    · exact removeHeadRecord_canonical h
  | _ => exact h.of_cells (by simp)

/-- A command handed over (R168, R169). -/
theorem deliver_canonical {code : Byte} {p : List Byte} (h : MemoryCanonical s) :
    MemoryCanonical (deliver code p s) := by
  have answered : MemoryCanonical (answerTo code p s).1 := by
    simp only [answerTo]
    split
    · exact ownerAction_canonical h
    · exact h
  simp only [deliver]
  split <;> exact answered

/-- A DATA write, in every phase of the port: SEND's payload byte is written to its block (R103). -/
theorem dataWrite_canonical {b : Byte} (h : MemoryCanonical s) :
    MemoryCanonical (dataWrite b s) := by
  simp only [dataWrite]
  split
  · simp only [commandByte]
    split
    · exact h
    all_goals exact deliver_canonical h
  · simp only [parameterByte]
    split
    · exact deliver_canonical h
    · exact h
  · simp only [payloadByte]
    split
    · rename_i i _
      have placed : MemoryCanonical (placePayloadByte i b s) := placePayloadByte_wf h
      split
      · exact placed.of_cells (by simp)
      · exact placed
    · exact h
  all_goals exact h.of_cells (by simp)

/-- A DATA read, in every phase of the port: the head record may be removed (R138, R172, R173). -/
theorem dataRead_canonical (h : MemoryCanonical s) : MemoryCanonical (dataRead s) := by
  simp only [dataRead]
  split
  · simp only [resultByte, resultRead, fetchResultRead]
    split
    · split
      · exact h
      · split
        · exact h.of_cells (by simp)
        · split
          · exact h
          · split
            · exact removeHeadRecord_canonical h
            · exact h
        · exact h.of_cells (by simp)
        · exact h
    · exact h
  · simp only [payloadRead]
    split
    · exact removeHeadRecord_canonical h
    · exact h
  all_goals exact h.of_cells (by simp)

/-- ABANDON. -/
theorem abandon_canonical (h : MemoryCanonical s) : MemoryCanonical (abandon s) := by
  simp only [abandon]
  split
  case h_3 => exact abandonSend_canonical h
  case h_4 => split <;> exact h
  all_goals exact h

/-- BUSY_END. -/
theorem busyEnd_canonical (h : MemoryCanonical s) : MemoryCanonical (busyEnd s) := by
  simp only [busyEnd]
  split
  · split
    · exact abandonSend_canonical h
    · exact h
  · split <;> exact h
  · exact h

/-- A whole command, in every phase of the port. -/
theorem giveCommand_canonical {code : Byte} {p : List Byte} (h : MemoryCanonical s) :
    MemoryCanonical (giveCommand code p s) := by
  have written (bytes : List Byte) : ∀ t : State, MemoryCanonical t →
      MemoryCanonical (bytes.foldl (fun t b => dataWrite b t) t) := by
    induction bytes with
    | nil => exact fun _ ht => ht
    | cons b rest ih => exact fun _ ht => ih _ (dataWrite_canonical ht)
  simp only [giveCommand]
  split
  · exact deliver_canonical h
  · exact written _ _ h

end Kept

/-! ### One action, one period, one step -/

/-- An action keeps the canonical form if its change does. -/
theorem act_keepsCanonical {change : State → State} {s t : State} (hs : MemoryCanonical s)
    (e : act change s = .next t) (hc : MemoryCanonical (change s)) : MemoryCanonical t := by
  simp only [act] at e
  split at e
  · obtain rfl := Host.Outcome.next.inj e
    exact hc
  · obtain rfl := Host.Outcome.next.inj e
    exact hs

/-- An action on the bus keeps the canonical form if its change does. -/
theorem actOnBus_keepsCanonical {change : State → State} {s t : State} (hs : MemoryCanonical s)
    (e : actOnBus change s = .next t) (hc : MemoryCanonical (change s)) : MemoryCanonical t := by
  refine act_keepsCanonical hs e ?_
  split
  · exact hc
  · exact hs

/-- An action on an edge keeps the canonical form if its change does. -/
theorem actOnLine_keepsCanonical {note : PinLevels → PinLevels} {change : State → State}
    {s t : State} (hs : MemoryCanonical s) (e : actOnLine note change s = .next t)
    (hc : MemoryCanonical (change s)) : MemoryCanonical t := by
  refine act_keepsCanonical hs e ?_
  split
  · exact hc
  · exact hs

/-- A period of the clock moves timers and places events in the queue of commands. -/
@[simp] theorem tick_cells (s : State) : (tick s).mem.cells = s.mem.cells := by
  simp only [tick]
  split <;> rfl

/-- Power-on values have no byte listed (R97, log 6). -/
theorem powerOn_canonical (straps : StationNumber) (p : PowerState) (n : Nat) (q : List Instr) :
    MemoryCanonical (State.powerOn straps p n q) := rfl

/-- Every command keeps the canonical form. -/
theorem exec_canonical {c : Instr} {s t : State} (h : MemoryCanonical s)
    (e : exec c s = .next t) : MemoryCanonical t := by
  cases c with
  | commandByteWrite b | parameterByteWrite b | payloadByteWrite b =>
    exact act_keepsCanonical h e (dataWrite_canonical h)
  | resultByteRead | payloadByteRead => exact act_keepsCanonical h e (dataRead_canonical h)
  | busyEnd => exact act_keepsCanonical h e (busyEnd_canonical h)
  | abandon b => exact act_keepsCanonical h e (abandon_canonical h)
  | protocolError a =>
    cases a with
    | write b => exact act_keepsCanonical h e (dataWrite_canonical h)
    | read => exact act_keepsCanonical h e (dataRead_canonical h)
  | configure | setGroup | join | leave | send | withdraw | reap | fetch | discard | openRendezvous
  | arm | cancel | outcome | causes | acknowledge | setMask | snapshot | softReset =>
    exact act_keepsCanonical h e (giveCommand_canonical h)
  | armPinEdge | firePulseEnd | deadlineExpiry | agedFlagSet | left | joinAbandoned =>
    exact act_keepsCanonical h e (h.of_cells (by simp))
  | resetAssert =>
    simp only [exec, execResetAssert] at e
    split at e
    · obtain rfl := Host.Outcome.next.inj e
      exact h
    · obtain rfl := Host.Outcome.next.inj e
      exact powerOn_canonical _ _ _ _
  | resetRelease straps =>
    simp only [exec, execResetRelease] at e
    split at e
    · obtain rfl := Host.Outcome.next.inj e
      exact h
    · obtain rfl := Host.Outcome.next.inj e
      exact powerOn_canonical _ _ _ _
  | lossOfPower =>
    obtain rfl := Host.Outcome.next.inj e
    exact powerOn_canonical _ _ _ _
  | breakEdge =>
    simp only [exec, execBreakEdge] at e
    exact actOnLine_keepsCanonical h e (breakEdge_canonical h)
  | ownAssertionSensed | ownReleaseSensed | busIdleSensed | reqSensed | brkRelease
  | trgReleaseSensed | participationBegin =>
    simp only [exec, execOwnAssertionSensed, execOwnReleaseSensed, execBusIdleSensed,
      execReqSensed, execBrkRelease, execTrgReleaseSensed, execParticipationBegin] at e
    exact actOnLine_keepsCanonical h e (h.of_cells (by simp))
  | take b => exact actOnBus_keepsCanonical h e (take_canonical h)
  | offerReleaseSensed => exact actOnBus_keepsCanonical h e (offerReleaseSensed_canonical h)
  | noListener => exact actOnBus_keepsCanonical h e (noListener_canonical h)
  | completionWindowEnd => exact actOnBus_keepsCanonical h e (completionWindowEnd_canonical h)
  | observe | talkerReadySensed | offerAssert | pendReleaseSensed | ownHoldEnd | stallTimerExpiry
  | silenceTimerExpiry | breakGuardEnd | breakPulseEnd | clearBreakClassification
  | readbackCompare | bidLineChange | arbitrationDecision | wonHoldEnd | roundGapExpiry
  | fireDelayEnd | clearBreakDelayEnd =>
    exact actOnBus_keepsCanonical h e (h.of_cells (by simp))

end Sys2Proof.Machine

open Sys2Proof Sys2Proof.Machine

/-- Settles O54: bytes are written where a participant takes a data byte, where a freeing renews a refused block request and where SEND's payload byte is placed, each through `Memory.write`; every other command leaves the contents as they are, or at power-on without a listed byte, and a period of the clock writes nothing. -/
theorem stepKeepsMemoryCanonical : Obligations.StepKeepsMemoryCanonical := by
  intro s t h e
  simp only [step] at e
  split at e
  · rename_i c rest _
    exact exec_canonical (s := { s with pending := rest }) h e
  · obtain rfl := Host.Outcome.next.inj e
    exact h.of_cells (tick_cells s)
end

section
/-! The queue of commands (R92, log 1). -/

open Sys2Proof Sys2Proof.Machine

/-- Settles O1: the queue of commands is not empty, and its front command decides the step. -/
theorem stepRunsTheFrontCommand : Obligations.StepRunsTheFrontCommand :=
  fun _ _ _ => rfl
end

section
/-! The three orders of the frame table (R100), and the one owner of every block (R87, R88, R93, R122). -/

namespace Sys2Proof.Machine

open Sys2Proof

/-! ### An order when one entry of the table is replaced (R100) -/

/-- The order l becomes l': the entry i stands in it once if it joins and not at all if it does not, and every other entry stands in it as before. -/
def Reordered (i : Fin 16) (joins : Prop) (l l' : List (Fin 16)) : Prop :=
  l'.Nodup ∧ ∀ j, j ∈ l' ↔ (j = i ∧ joins) ∨ (j ≠ i ∧ j ∈ l)

section Order

variable {i : Fin 16} {joins : Prop} {l : List (Fin 16)}

/-- The order stays as it is. -/
theorem Reordered.stays (hl : l.Nodup) (hi : i ∈ l ↔ joins) : Reordered i joins l l := by
  refine ⟨hl, fun j => ?_⟩
  by_cases hj : j = i <;> simp [hj, hi]

/-- The entry joins the tail. -/
theorem Reordered.tail (hl : l.Nodup) (hi : i ∉ l) (hj : joins) :
    Reordered i joins l (l ++ [i]) := by
  refine ⟨by simpa [List.nodup_append] using ⟨hl, fun j hj e => hi (e ▸ hj)⟩, fun j => ?_⟩
  by_cases e : j = i <;> simp [e, hj]

/-- The entry joins the head. -/
theorem Reordered.head (hl : l.Nodup) (hi : i ∉ l) (hj : joins) :
    Reordered i joins l (i :: l) := by
  refine ⟨List.nodup_cons.2 ⟨hi, hl⟩, fun j => ?_⟩
  by_cases e : j = i <;> simp [e, hj]

/-- The entry leaves from wherever it stands. -/
theorem Reordered.leaves (hl : l.Nodup) (hj : ¬ joins) :
    Reordered i joins l (l.filter (· != i)) := by
  refine ⟨hl.filter _, fun j => ?_⟩
  by_cases e : j = i <;> simp [e, hj]

/-- The entry leaves from the head. -/
theorem Reordered.beheaded (hl : (i :: l).Nodup) (hj : ¬ joins) :
    Reordered i joins (i :: l) l := by
  obtain ⟨hi, hl⟩ := List.nodup_cons.1 hl
  refine ⟨hl, fun j => ?_⟩
  by_cases e : j = i <;> simp [e, hj, hi]

end Order

/-- The orders agree again when one descriptor is replaced and each order follows it. -/
theorem OrdersAgree.of_entry {s t : State} {i : Fin 16} {d : Descriptor} (h : OrdersAgree s)
    (ht : t.tm.table = s.tm.table.set i d)
    (hu : Reordered i (d.state = .queued ∧ d.cls = .urgent) s.tm.urgent t.tm.urgent)
    (hn : Reordered i (d.state = .queued ∧ d.cls = .normal) s.tm.normal t.tm.normal)
    (hc : Reordered i (d.state = .done) s.tm.completion t.tm.completion) : OrdersAgree t := by
  obtain ⟨-, -, -, agree⟩ := h
  refine ⟨hu.1, hn.1, hc.1, fun j => ?_⟩
  obtain ⟨au, an, ac⟩ := agree j
  have entry : t.tm.table[j] = if j = i then d else s.tm.table[j] := by
    simp [ht, Vector.getElem_set, Fin.ext_iff, eq_comm]
  rw [hu.2 j, hn.2 j, hc.2 j, entry, au, an, ac]
  by_cases e : j = i <;> simp [e]

/-! ### The owners of the blocks (R87) -/

/-- Blocks that no descriptor holds, each listed under its owner. -/
def blocksBesideTable (s : State) : List Nat :=
  s.mem.pool ++ recordBlocks s ++ constructionBlocks s

/-- FREE and DONE descriptors hold no blocks (R93). -/
def EndedHoldNone (s : State) : Prop :=
  ∀ i : Fin 16, s.tm.table[i].state = .free ∨ s.tm.table[i].state = .done →
    s.tm.table[i].blocks = []

/-- No record is under construction in IDLE, SLOT_WAIT and DROPPING (R122). -/
def ConstructionInPlace (s : State) : Prop :=
  s.rm.state = .idle ∨ s.rm.state = .slotWait ∨ s.rm.state = .dropping →
    s.rm.construction = none

/-- Every block is held by a descriptor or listed beside the table. -/
theorem ownedBlocks_perm (s : State) :
    (ownedBlocks s).Perm (descriptorBlocks s ++ blocksBesideTable s) := by
  rw [List.perm_iff_count]
  intro b
  simp only [ownedBlocks, blocksBesideTable, List.count_append]
  omega

/-- One entry of a list replaced: what it held goes, and what it holds now comes. -/
theorem perm_flatMap_set {α β : Type} (f : α → List β) (d : α) :
    ∀ (l : List α) (i : Nat) (hi : i < l.length),
      ((l.set i d).flatMap f ++ f l[i]).Perm (l.flatMap f ++ f d)
  | a :: rest, 0, _ => by
    simpa using (List.perm_append_comm (l₁ := f d ++ rest.flatMap f) (l₂ := f a)).trans
      (by simpa using List.perm_append_comm.append_left (f a))
  | a :: rest, i + 1, hi => by
    simpa using (perm_flatMap_set f d rest i (by simpa using hi)).append_left (f a)

/-- One descriptor replaced: the blocks of the old one are held no more, those of the new one are. -/
theorem descriptorBlocks_set {s t : State} {i : Fin 16} {d : Descriptor}
    (ht : t.tm.table = s.tm.table.set i d) :
    (descriptorBlocks t ++ s.tm.table[i].blocks).Perm (descriptorBlocks s ++ d.blocks) := by
  have := perm_flatMap_set (·.blocks) d s.tm.table.toList i (by simp)
  simpa [descriptorBlocks, ht, Vector.toList_set] using this

/-- Every block keeps one owner when one descriptor is replaced and what it held and holds is exchanged with the pool. -/
theorem BlocksOwned.of_entry {s t : State} {i : Fin 16} {d : Descriptor} (h : BlocksOwned s)
    (ht : t.tm.table = s.tm.table.set i d) (hr : t.rm = s.rm)
    (moved : (t.mem.pool ++ d.blocks).Perm (s.mem.pool ++ s.tm.table[i].blocks))
    (ended : d.state = .free ∨ d.state = .done → d.blocks = []) : BlocksOwned t := by
  obtain ⟨owned, unheld, placed⟩ := h
  refine ⟨List.Perm.trans ?_ owned, fun j => ?_, by rwa [hr]⟩
  · have held := descriptorBlocks_set ht
    have records : recordBlocks t = recordBlocks s := by simp [recordBlocks, hr]
    have building : constructionBlocks t = constructionBlocks s := by simp [constructionBlocks, hr]
    rw [List.perm_iff_count] at moved held ⊢
    intro b
    have pool := moved b
    have table := held b
    simp only [ownedBlocks, records, building, List.count_append] at pool table ⊢
    omega
  · have entry : t.tm.table[j] = if j = i then d else s.tm.table[j] := by
      simp [ht, Vector.getElem_set, Fin.ext_iff, eq_comm]
    rw [entry]
    split
    · exact ended
    · exact unheld j

/-- Every block keeps one owner when blocks move among the pool and the receive manager. -/
theorem BlocksOwned.of_reception {s t : State} (h : BlocksOwned s)
    (ht : t.tm.table = s.tm.table)
    (moved : (blocksBesideTable t).Perm (blocksBesideTable s)) (placed : ConstructionInPlace t) :
    BlocksOwned t := by
  obtain ⟨owned, unheld, -⟩ := h
  refine ⟨?_, by rwa [ht], placed⟩
  have held : descriptorBlocks t = descriptorBlocks s := by simp [descriptorBlocks, ht]
  calc
    (ownedBlocks t).Perm (descriptorBlocks s ++ blocksBesideTable t) := held ▸ ownedBlocks_perm t
    List.Perm _ (descriptorBlocks s ++ blocksBesideTable s) := moved.append_left _
    List.Perm _ (ownedBlocks s) := (ownedBlocks_perm s).symm
    List.Perm _ (List.range Config.blockCount) := owned

/-- With one owner to each of the 128 blocks, the three counts of SNAPSHOT sum to 128 (R88). -/
theorem BlocksOwned.counts {s : State} (h : BlocksOwned s) :
    freeCount s + transmitHeld s + receiveHeld s = 128 := by
  have total := h.1.length_eq
  simp only [ownedBlocks, List.length_append, List.length_range, Config.blockCount] at total
  simp only [freeCount, transmitHeld, receiveHeld]
  omega

end Sys2Proof.Machine
end

section
/-! Every operation keeps the orders in agreement and every block with its owner (R87–R145). -/

namespace Sys2Proof.Machine

open Sys2Proof

/-- The orders of the frame table agree in the second state, and each block has one owner there if it had one in the first. -/
structure TableKept (s₀ s : State) : Prop where
  orders : OrdersAgree s
  owned : BlocksOwned s₀ → BlocksOwned s

/-- A state whose orders agree keeps them. -/
theorem TableKept.refl {s : State} (h : OrdersAgree s) : TableKept s s := ⟨h, id⟩

section Kept

variable {s₀ s : State}

/-- One descriptor is replaced, the orders follow, and what it held and holds is exchanged with the pool. -/
theorem TableKept.of_entry {t : State} {i : Fin 16} {d : Descriptor} (h : TableKept s₀ s)
    (ht : t.tm.table = s.tm.table.set i d) (hr : t.rm = s.rm)
    (hu : Reordered i (d.state = .queued ∧ d.cls = .urgent) s.tm.urgent t.tm.urgent)
    (hn : Reordered i (d.state = .queued ∧ d.cls = .normal) s.tm.normal t.tm.normal)
    (hc : Reordered i (d.state = .done) s.tm.completion t.tm.completion)
    (moved : EndedHoldNone s → (t.mem.pool ++ d.blocks).Perm (s.mem.pool ++ s.tm.table[i].blocks))
    (ended : d.state = .free ∨ d.state = .done → d.blocks = []) : TableKept s₀ t := by
  refine ⟨h.orders.of_entry ht hu hn hc, fun h₀ => ?_⟩
  obtain ⟨-, unheld, -⟩ := h.owned h₀
  exact (h.owned h₀).of_entry ht hr (moved unheld) ended

/-- Blocks move among the pool and the receive manager. -/
theorem TableKept.of_reception {t : State} (h : TableKept s₀ s) (ht : t.tm = s.tm)
    (moved : ConstructionInPlace s →
      (blocksBesideTable t).Perm (blocksBesideTable s) ∧ ConstructionInPlace t) :
    TableKept s₀ t := by
  refine ⟨by simpa only [OrdersAgree, ht] using h.orders, fun h₀ => ?_⟩
  obtain ⟨-, -, inPlace⟩ := h.owned h₀
  obtain ⟨perm, placed⟩ := moved inPlace
  exact (h.owned h₀).of_reception (by rw [ht]) perm placed

/-- An operation that leaves the frame table, the receive manager and the pool as they are. -/
theorem TableKept.of_same {t : State} (h : TableKept s₀ s)
    (e : t.tm.table = s.tm.table ∧ t.tm.urgent = s.tm.urgent ∧ t.tm.normal = s.tm.normal ∧
      t.tm.completion = s.tm.completion ∧ t.rm = s.rm ∧ t.mem.pool = s.mem.pool) :
    TableKept s₀ t := by
  obtain ⟨ht, hu, hn, hc, hr, hp⟩ := e
  refine ⟨by simpa only [OrdersAgree, ht, hu, hn, hc] using h.orders, fun h₀ => ?_⟩
  simpa only [BlocksOwned, ownedBlocks, descriptorBlocks, recordBlocks, constructionBlocks, ht, hr,
    hp] using h.owned h₀

/-! ### The frame table (R99, R100, R109) -/

/-- A descriptor that is not QUEUED stands in neither queue (R100). -/
theorem OrdersAgree.unqueued {i : Fin 16} (h : OrdersAgree s)
    (hq : s.tm.table[i].state ≠ .queued) : i ∉ s.tm.urgent ∧ i ∉ s.tm.normal := by
  obtain ⟨-, -, -, agree⟩ := h
  obtain ⟨au, an, -⟩ := agree i
  exact ⟨fun hi => hq (au.1 hi).1, fun hi => hq (an.1 hi).1⟩

/-- A descriptor that is not DONE is not on the completion list (R100). -/
theorem OrdersAgree.uncompleted {i : Fin 16} (h : OrdersAgree s)
    (hd : s.tm.table[i].state ≠ .done) : i ∉ s.tm.completion := by
  obtain ⟨-, -, -, agree⟩ := h
  exact fun hi => hd ((agree i).2.2.1 hi)

/-- A descriptor passes between states that no order holds. -/
theorem TableKept.of_unordered {t : State} {i : Fin 16} {d : Descriptor} (h : TableKept s₀ s)
    (hq : s.tm.table[i].state ≠ .queued ∧ s.tm.table[i].state ≠ .done)
    (hd : d.state ≠ .queued ∧ d.state ≠ .done)
    (ht : t.tm = { s.tm with
      table := s.tm.table.set i d, slot := t.tm.slot, handed := t.tm.handed })
    (hr : t.rm = s.rm)
    (moved : EndedHoldNone s → (t.mem.pool ++ d.blocks).Perm (s.mem.pool ++ s.tm.table[i].blocks))
    (ended : d.state = .free → d.blocks = []) : TableKept s₀ t := by
  obtain ⟨nu, nn, nc, -⟩ := h.orders
  obtain ⟨iu, iN⟩ := h.orders.unqueued hq.1
  have ic := h.orders.uncompleted hq.2
  refine h.of_entry (d := d) (by rw [ht]) hr ?_ ?_ ?_ moved
    fun hs => ended (hs.resolve_right hd.2)
  · rw [ht]; exact .stays nu (by simp [iu, hd.1])
  · rw [ht]; exact .stays nn (by simp [iN, hd.1])
  · rw [ht]; exact .stays nc (by simp [ic, hd.2])

/-- A descriptor at the tail of its class's queue (R100). -/
theorem queueAtTail_eq (i : Fin 16) (s : State) :
    queueAtTail i s = { s with
      tm.table := s.tm.table.set i { s.tm.table[i] with state := .queued }
      tm.urgent := if s.tm.table[i].cls = .urgent then s.tm.urgent ++ [i] else s.tm.urgent
      tm.normal := if s.tm.table[i].cls = .normal then s.tm.normal ++ [i] else s.tm.normal } := by
  simp only [queueAtTail]
  split <;> rename_i hc <;> simp only [hc, if_true, reduceCtorEq, if_false] <;> rfl

/-- A descriptor that no order holds joins its class's queue, at whichever end (R100). -/
theorem joinQueue_kept {i : Fin 16} {place : List (Fin 16) → List (Fin 16)}
    (joined : ∀ {joins : Prop} {l : List (Fin 16)}, l.Nodup → i ∉ l → joins →
      Reordered i joins l (place l))
    (h : TableKept s₀ s) (hq : s.tm.table[i].state ≠ .queued ∧ s.tm.table[i].state ≠ .done) :
    TableKept s₀ { s with
      tm.table := s.tm.table.set i { s.tm.table[i] with state := .queued }
      tm.urgent := if s.tm.table[i].cls = .urgent then place s.tm.urgent else s.tm.urgent
      tm.normal := if s.tm.table[i].cls = .normal then place s.tm.normal else s.tm.normal } := by
  obtain ⟨nu, nn, nc, -⟩ := h.orders
  obtain ⟨iu, iN⟩ := h.orders.unqueued hq.1
  have ic := h.orders.uncompleted hq.2
  refine h.of_entry rfl rfl ?_ ?_ (.stays nc (by simp [ic])) (fun _ => .refl _) (by simp) <;>
    cases s.tm.table[i].cls
  · exact .stays nu (by simp [iu])
  · exact joined nu iu ⟨rfl, rfl⟩
  · exact joined nn iN ⟨rfl, rfl⟩
  · exact .stays nn (by simp [iN])

/-- A descriptor that no order holds is queued at the tail. -/
theorem queueAtTail_kept {i : Fin 16} (h : TableKept s₀ s)
    (hq : s.tm.table[i].state ≠ .queued ∧ s.tm.table[i].state ≠ .done) :
    TableKept s₀ (queueAtTail i s) := by
  rw [queueAtTail_eq]
  exact joinQueue_kept (place := (· ++ [i])) .tail h hq

/-- A descriptor that no order holds is queued at the head. -/
theorem queueAtHead_kept {i : Fin 16} (h : TableKept s₀ s)
    (hq : s.tm.table[i].state ≠ .queued ∧ s.tm.table[i].state ≠ .done) :
    TableKept s₀ (queueAtHead i s) := by
  rw [queueAtHead_eq]
  exact joinQueue_kept (place := (i :: ·)) .head h hq

/-- A QUEUED descriptor leaves its queue for a state that no order holds. -/
theorem TableKept.of_queued {t : State} {i : Fin 16} {d : Descriptor} (h : TableKept s₀ s)
    (hq : s.tm.table[i].state = .queued) (hd : d.state ≠ .queued ∧ d.state ≠ .done)
    (ht : t.tm = { s.tm with
      table := s.tm.table.set i d
      urgent := s.tm.urgent.filter (· != i)
      normal := s.tm.normal.filter (· != i) })
    (hr : t.rm = s.rm)
    (moved : EndedHoldNone s → (t.mem.pool ++ d.blocks).Perm (s.mem.pool ++ s.tm.table[i].blocks))
    (ended : d.state = .free → d.blocks = []) : TableKept s₀ t := by
  obtain ⟨nu, nn, nc, agree⟩ := h.orders
  refine h.of_entry (d := d) (by rw [ht]) hr ?_ ?_ ?_ moved
    fun hs => ended (hs.resolve_right hd.2)
  · rw [ht]; exact .leaves nu fun e => hd.1 e.1
  · rw [ht]; exact .leaves nn fun e => hd.1 e.1
  · rw [ht]; exact .stays nc (by rw [(agree i).2.2, hq]; simp [hd.2])

/-- The descriptor that is SELECTED. -/
theorem selectedFrame_state {i : Fin 16} (h : selectedFrame s = some (.descriptor i)) :
    s.tm.table[i].state = .selected := by
  simp only [selectedFrame] at h
  have found : findDescriptor s (·.state == .selected) = some i := by
    split at h
    · split at h
      · cases h
      · simpa using h
    · simpa using h
  simpa using findDescriptor_meets found

/-- The descriptor that is IN_FLIGHT. -/
theorem inFlightFrame_state {i : Fin 16} (h : inFlightFrame s = some (.descriptor i)) :
    s.tm.table[i].state = .inFlight := by
  simp only [inFlightFrame] at h
  have found : findDescriptor s (·.state == .inFlight) = some i := by
    split at h
    · split at h
      · cases h
      · simpa using h
    · simpa using h
  simpa using findDescriptor_meets found

/-- A descriptor the station may bid with stands in a queue (R23). -/
theorem eligibleFrame_mem {i : Fin 16} (h : eligibleFrame s = some (.descriptor i)) :
    i ∈ s.tm.urgent ∨ i ∈ s.tm.normal := by
  have slot : eligibleSlot s ≠ some (.descriptor i) := by
    simp only [eligibleSlot]
    repeat' split
    all_goals simp
  simp only [eligibleFrame] at h
  split at h
  · split at h
    · rename_i f hf
      exact absurd (hf.trans h) slot
    · split at h
      · rename_i hu
        simp only [Option.some.injEq, FrameRef.descriptor.injEq] at h
        exact .inl (by simp [hu, h])
      · simp only [eligibleNormal] at h
        split at h
        · cases h
        · simp only [Option.map_eq_some_iff, FrameRef.descriptor.injEq] at h
          obtain ⟨j, hj, rfl⟩ := h
          exact .inr (List.mem_of_head? hj)
  · split at h
    · exact absurd h slot
    · cases h
  all_goals cases h

/-- An eligible frame is selected (R23). -/
theorem selectFrame_kept {f : FrameRef} (h : TableKept s₀ s) (hf : eligibleFrame s = some f) :
    TableKept s₀ (selectFrame f s) := by
  cases f with
  | slot =>
    simp only [selectFrame]
    split
    · exact h.of_same (by simp)
    · exact h
  | descriptor i =>
    obtain ⟨-, -, -, agree⟩ := h.orders
    have queued : s.tm.table[i].state = .queued :=
      (eligibleFrame_mem hf).elim (fun m => ((agree i).1.1 m).1) fun m => ((agree i).2.1.1 m).1
    exact h.of_queued queued (d := { s.tm.table[i] with state := .selected }) (by simp) rfl rfl
      (fun _ => .refl _) (by simp)

/-- A frame that goes back joins the head of its class (R27–R29). -/
theorem returnSelected_kept (h : TableKept s₀ s) : TableKept s₀ (returnSelected s) := by
  simp only [returnSelected]
  split
  · rename_i i hi
    exact queueAtHead_kept h (by rw [selectedFrame_state hi]; decide)
  · split
    · exact h.of_same (by simp)
    · exact h
  · exact h

/-- A frame that goes into flight stands in no order (R109). -/
theorem beginAttempt_kept (h : TableKept s₀ s) : TableKept s₀ (beginAttempt s) := by
  simp only [beginAttempt]
  split
  · rename_i i hi
    exact h.of_unordered (i := i)
      (d := { s.tm.table[i] with state := .inFlight, attempts := s.tm.table[i].attempts + 1 })
      (by rw [selectedFrame_state hi]; decide) (by simp) rfl rfl (fun _ => .refl _) (by simp)
  · split <;> exact h.of_same (by simp)
  · exact h.of_same (by simp)

/-! ### The arbiter (R20–R31) -/

/-- An arbiter that asks for the bus selects an eligible frame. -/
theorem askArbiter_kept (h : TableKept s₀ s) : TableKept s₀ (askArbiter s) := by
  simp only [askArbiter]
  split
  · split
    · rename_i f hf
      exact (selectFrame_kept h hf).of_same (by simp [openWindow])
    · exact h
  · exact h

/-- The entry into STANDBY asks. -/
theorem enterStandby_kept (h : TableKept s₀ s) : TableKept s₀ (enterStandby s) :=
  askArbiter_kept (h.of_same (by simp))

/-- A bid given up returns its frame. -/
theorem giveUpBid_kept (h : TableKept s₀ s) : TableKept s₀ (giveUpBid s) :=
  (returnSelected_kept (s := { s with line.drive.req := false, line.drive.data := 0 })
    (h.of_same (by simp))).of_same (by simp [giveUpBid])

/-- A frame placed in the slot is asked for. -/
theorem placeSlotFrame_kept {kind : SlotKind} (h : TableKept s₀ s) :
    TableKept s₀ (placeSlotFrame kind s) :=
  askArbiter_kept (h.of_same (by simp))

/-- An automatic CANCEL is placed in the slot or merged. -/
theorem placeCancel_kept {group tag : Byte} (h : TableKept s₀ s) :
    TableKept s₀ (placeCancel group tag s) := by
  simp only [placeCancel]
  split
  · exact placeSlotFrame_kept h
  · exact h

/-- REQ_SENSED. -/
theorem reqSensed_kept (h : TableKept s₀ s) : TableKept s₀ (reqSensed s) := by
  simp only [reqSensed]
  split
  · split
    · rename_i f hf
      refine (selectFrame_kept (h.of_same ?_) hf).of_same (by simp [openWindow])
      simp
    · exact h.of_same (by simp)
  · exact h.of_same (by simp)

/-- ARBITRATION_DECISION. -/
theorem arbitrationDecision_kept {d : Byte} (h : TableKept s₀ s) :
    TableKept s₀ (arbitrationDecision d s) := by
  simp only [arbitrationDecision]
  split
  · split
    · exact h.of_same (by simp)
    · exact giveUpBid_kept (h.of_same (by simp))
  · exact h

/-- WON_HOLD_END. -/
theorem wonHoldEnd_kept (h : TableKept s₀ s) : TableKept s₀ (wonHoldEnd s) := by
  simp only [wonHoldEnd]
  split
  · exact (beginAttempt_kept h).of_same (by simp)
  · exact h

/-- ROUND_GAP_EXPIRY. -/
theorem roundGapExpiry_kept (h : TableKept s₀ s) : TableKept s₀ (roundGapExpiry s) := by
  simp only [roundGapExpiry]
  split
  · exact askArbiter_kept (h.of_same (by simp))
  · exact h

/-! ### The view and the system slot (R55–R86, R119) -/

/-- The removal of the slot's frame moves no descriptor. -/
theorem removeSlotFrame_kept (h : TableKept s₀ s) : TableKept s₀ (removeSlotFrame s) := by
  simp only [removeSlotFrame]
  split
  · exact h
  · split <;> exact h.of_same (by simp)

/-- A purge acts on the slot alone. -/
theorem purgeCancel_kept {tag : Byte} (h : TableKept s₀ s) : TableKept s₀ (purgeCancel tag s) := by
  rw [purgeCancel_eq]
  exact h.of_same (by simp)

/-- The view that closes may purge the slot. -/
theorem closeView_kept {o : RdvOutcome} {closedAt : ClockTime} (h : TableKept s₀ s) :
    TableKept s₀ (closeView o closedAt s) :=
  h.of_same (by simp [closeView, purgeCancel_eq])

/-- The end of a well-formed OPEN may discard an own OPEN. -/
theorem openCompletion_kept (h : TableKept s₀ s) : TableKept s₀ (openCompletion s) := by
  have discards {t : State} (ht : TableKept s₀ t) : TableKept s₀ (discardLostOpen t) := by
    simp only [discardLostOpen]
    split
    · split <;> exact ht.of_same (by simp)
    · exact ht
  refine discards ?_
  split
  · exact h.of_same (by simp)
  · split
    · split <;> exact h.of_same (by simp)
    · exact h.of_same (by simp)

/-- A CANCEL that ends without closing the view may place the automatic CANCEL. -/
theorem liftFreeze_kept (h : TableKept s₀ s) : TableKept s₀ (liftFreeze s) := by
  have places {t : State} (ht : TableKept s₀ t) : TableKept s₀ (placeDeferredCancel t) := by
    simp only [placeDeferredCancel]
    split
    · exact placeCancel_kept (ht.of_same (by simp))
    · exact ht
  simp only [liftFreeze]
  split
  · exact places (h.of_same (by simp))
  · exact h

/-- The end of a completed frame at the rendezvous unit. -/
theorem rendezvousCompletion_kept {f : FrameState} (h : TableKept s₀ s) :
    TableKept s₀ (rendezvousCompletion f s) := by
  simp only [rendezvousCompletion]
  split
  · split
    · exact openCompletion_kept h
    · exact h.of_same (by simp)
  · split
    · split
      · simp only [cancelCompletion]
        split
        · exact closeView_kept h
        · split
          · exact h.of_same (by simp)
          · exact h
        · exact liftFreeze_kept h
        · exact liftFreeze_kept h
        · exact h
        · exact h
      · exact liftFreeze_kept h
    · exact h

/-- The end of an abandoned frame at the rendezvous unit. -/
theorem rendezvousAbandonment_kept {f : FrameState} (h : TableKept s₀ s) :
    TableKept s₀ (rendezvousAbandonment f s) := by
  simp only [rendezvousAbandonment]
  split
  · exact h.of_same (by simp)
  · split
    · exact liftFreeze_kept h
    · exact h

/-- A CANCEL that nobody hears closes the view (R74). -/
theorem closeNoListener_kept {tag : Byte} (h : TableKept s₀ s) :
    TableKept s₀ (closeNoListener tag s) := by
  simp only [closeNoListener]
  split
  · exact closeView_kept (h.of_same (by simp))
  · exact h

/-- FIRE_DELAY_END. -/
theorem fireDelayEnd_kept (h : TableKept s₀ s) : TableKept s₀ (fireDelayEnd s) := by
  simp only [fireDelayEnd]
  split
  · exact closeView_kept (h.of_same (by simp))
  · exact h
  · exact h

/-- DEADLINE_EXPIRY. -/
theorem deadlineExpiry_kept (h : TableKept s₀ s) : TableKept s₀ (deadlineExpiry s) := by
  simp only [deadlineExpiry]
  split
  · exact h
  · split
    case h_1 | h_2 =>
      split
      · exact placeCancel_kept (h.of_same (by simp))
      · exact h.of_same (by simp)
    all_goals exact h.of_same (by simp)

/-- CLEAR_BREAK_CLASSIFICATION may purge a CANCEL. -/
theorem clearBreakClassification_kept (h : TableKept s₀ s) :
    TableKept s₀ (clearBreakClassification s) := by
  simp only [clearBreakClassification, closingSet]
  split
  · split
    case h_1 | h_2 => exact purgeCancel_kept (h.of_same (by simp))
    all_goals exact h.of_same (by simp)
  all_goals exact h

/-- The release of BRK closes a view or fires it. -/
theorem breakReleasedAtView_kept (h : TableKept s₀ s) : TableKept s₀ (breakReleasedAtView s) := by
  simp only [breakReleasedAtView]
  split
  · exact closeView_kept h
  · split
    · exact closeView_kept (h.of_same (by simp))
    all_goals exact h

/-- The view of a station that leaves the bus may close. -/
theorem viewLeavesBus_kept (h : TableKept s₀ s) : TableKept s₀ (viewLeavesBus s) := by
  simp only [viewLeavesBus]
  split
  case h_1 | h_2 | h_3 => exact closeView_kept (h.of_same (by simp))
  all_goals exact h.of_same (by simp)

/-- The slot of a station that leaves the bus is emptied. -/
theorem emptySlotAtEntry_kept (h : TableKept s₀ s) : TableKept s₀ (emptySlotAtEntry s) := by
  simp only [emptySlotAtEntry]
  split
  · split <;> exact h.of_same (by simp)
  · exact h

/-! ### The receive manager (R122–R145) -/

/-- Outside IDLE, SLOT_WAIT and DROPPING a record may be under construction. -/
theorem constructionInPlace_busy (h : s.rm.state = .storing ∨ s.rm.state = .blockWait ∨
    s.rm.state = .truncated ∨ s.rm.state = .malformed) : ConstructionInPlace s := by
  intro rest
  rcases h with h | h | h | h <;> simp [h] at rest

/-- A record under construction shows that the receive manager is not at rest. -/
theorem ConstructionInPlace.of_building {t : State} {c : Construction}
    (h : ConstructionInPlace s) (hc : s.rm.construction = some c) (e : t.rm.state = s.rm.state) :
    ConstructionInPlace t := by
  intro rest
  rw [e] at rest
  cases hc.symm.trans (h rest)

/-- A copy takes no block but the one at the head of the pool (R91, R128). -/
theorem storeCopies_kept {value : Byte} {last : Bool} {n : Nat} (h : TableKept s₀ s) :
    TableKept s₀ (storeCopies value last n s) := by
  induction n generalizing s with
  | zero => exact h.of_reception rfl fun _ => ⟨.refl _, constructionInPlace_busy (.inl rfl)⟩
  | succ n ih =>
    simp only [storeCopies]
    split
    · exact h
    · rename_i c hc
      have building : constructionBlocks s = c.blocks := by simp [constructionBlocks, hc]
      split
      · refine ih (h.of_reception rfl fun placed => ⟨?_, placed.of_building hc rfl⟩)
        simp only [blocksBesideTable, building]
        exact .refl _
      · split
        · rename_i b rest hp
          refine ih (h.of_reception rfl fun placed => ⟨?_, placed.of_building hc rfl⟩)
          simp only [blocksBesideTable, building, hp, List.perm_iff_count]
          intro x
          simp only [putCopy, constructionBlocks, recordBlocks, List.count_append, List.count_cons,
            List.count_nil]
          omega
        · simp only [requestRefused]
          split
          · exact h.of_reception rfl fun _ =>
              ⟨.refl _, constructionInPlace_busy (.inr (.inl rfl))⟩
          · refine h.of_reception rfl fun _ =>
              ⟨?_, constructionInPlace_busy (.inr (.inr (.inl rfl)))⟩
            simp only [blocksBesideTable, building]
            exact .refl _

/-- The blocks of the record under construction are not the lengths' matter. -/
theorem countFull_kept {n : Nat} (h : TableKept s₀ s) : TableKept s₀ (countFull n s) := by
  refine h.of_reception rfl fun placed => ⟨?_, fun rest => ?_⟩
  · simp only [blocksBesideTable, constructionBlocks, countFull]
    cases s.rm.construction <;> exact .refl _
  · have := placed rest
    simp [countFull, this]

/-- Copies handed on are stored or counted (R127, R128, R131). -/
theorem receiveCopies_kept {value : Byte} {n : Nat} {last : Bool} (h : TableKept s₀ s) :
    TableKept s₀ (receiveCopies value n last s) := by
  simp only [receiveCopies]
  split
  · exact storeCopies_kept (countFull_kept h)
  · exact countFull_kept h
  all_goals exact h

/-- A malformed payload leaves the blocks with their record (R132). -/
theorem receiveMalformed_kept (h : TableKept s₀ s) : TableKept s₀ (receiveMalformed s) := by
  have spoiled : TableKept s₀ { s with
      rm.state := .malformed
      rm.construction := s.rm.construction.map (fun c => { c with status := .malformed }) } := by
    refine h.of_reception rfl fun _ =>
      ⟨?_, constructionInPlace_busy (.inr (.inr (.inr rfl)))⟩
    simp only [blocksBesideTable, constructionBlocks]
    cases s.rm.construction <;> exact .refl _
  simp only [receiveMalformed]
  split
  · exact spoiled
  · exact spoiled
  all_goals exact h

/-- A slot is reserved for a record that holds no blocks yet (R125). -/
theorem reserveSlot_kept (h : TableKept s₀ s) (hs : s.rm.state = .idle ∨ s.rm.state = .slotWait) :
    TableKept s₀ (reserveSlot s) := by
  refine h.of_reception rfl fun placed => ⟨?_, constructionInPlace_busy (.inl rfl)⟩
  have unbuilt := placed (hs.imp_right .inl)
  simp only [blocksBesideTable, constructionBlocks, unbuilt]
  exact .refl _

/-- A record slot is given, waited for or refused (R125–R127). -/
theorem requestSlot_kept (h : TableKept s₀ s) : TableKept s₀ (requestSlot s) := by
  simp only [requestSlot]
  split
  · rename_i hi
    have known (p : Option Policy) : TableKept s₀ { s with rm.policy := p } :=
      h.of_reception rfl fun placed => ⟨.refl _, placed⟩
    have waits (p : Option Policy) (r : ReceptionState) :
        TableKept s₀ { s with rm.policy := p, rm.state := r } :=
      h.of_reception rfl fun placed => ⟨.refl _, fun _ => placed (.inl hi)⟩
    split
    · exact reserveSlot_kept (known _) (.inl hi)
    · split <;> exact waits _ _
  · exact h

/-- The blocks of a discarded record join the pool (R136). -/
theorem receptionAbandonment_kept (h : TableKept s₀ s) :
    TableKept s₀ (receptionAbandonment s) := by
  rw [receptionAbandonment_eq]
  refine h.of_reception rfl fun _ => ⟨?_, fun _ => rfl⟩
  simp only [blocksBesideTable, List.perm_iff_count]
  intro b
  simp only [recordBlocks, constructionBlocks, List.count_append, List.count_nil]
  omega

/-- A record that is complete keeps its blocks, and a malformed one gives them back (R133, R135). -/
theorem receptionCompletion_kept {f : FrameState} (h : TableKept s₀ s) :
    TableKept s₀ (receptionCompletion f s) := by
  simp only [receptionCompletion]
  split
  case h_1 _ hc | h_2 _ hc =>
    refine h.of_reception (by simp) fun _ => ⟨?_, fun _ => rfl⟩
    simp [blocksBesideTable, recordBlocks, constructionBlocks, joinRecord, hc]
  case h_3 _ hc =>
    refine h.of_reception (by simp) fun _ => ⟨?_, fun _ => rfl⟩
    simpa [blocksBesideTable, recordBlocks, constructionBlocks, joinRecord, hc]
      using List.perm_append_comm.append_left s.mem.pool
  case h_4 hs =>
    refine h.of_reception (by simp) fun placed => ⟨?_, fun _ => rfl⟩
    have unbuilt := placed (.inr (.inr hs))
    simp only [blocksBesideTable, constructionBlocks, unbuilt]
    exact .refl _
  case h_5 hs =>
    split
    · exact h
    · split
      · refine h.of_reception (by simp) fun placed => ⟨?_, placed⟩
        simp [blocksBesideTable, recordBlocks, joinRecord, constructionBlocks]
      · exact h.of_same (by simp)
  case h_6 => exact receptionAbandonment_kept h

/-- The blocks of a record are not its aged flag's matter (R143). -/
theorem setAgedAt_blocks (place : Nat) (records : List Record) :
    (setAgedAt place records).flatMap (·.blocks) = records.flatMap (·.blocks) := by
  induction records generalizing place with
  | nil => simp [setAgedAt]
  | cons r rest ih => cases place <;> simp [setAgedAt, ih]

/-- CONFIGURE's new flags move no block (R144). -/
theorem reevaluateAged_kept (h : TableKept s₀ s) : TableKept s₀ (reevaluateAged s) := by
  refine h.of_reception rfl fun placed => ⟨?_, placed⟩
  have records : recordBlocks (reevaluateAged s) = recordBlocks s := by
    simp [recordBlocks, reevaluateAged, List.flatMap_map]
  simp only [blocksBesideTable, records]
  exact .refl _

/-- AGED_FLAG_SET. -/
theorem agedFlagSet_kept {place : Nat} (h : TableKept s₀ s) :
    TableKept s₀ (agedFlagSet place s) := by
  simp only [agedFlagSet]
  split
  · exact h
  · refine h.of_reception rfl fun placed => ⟨?_, placed⟩
    simp only [blocksBesideTable, recordBlocks, setAgedAt_blocks]
    exact .refl _

/-! ### Bytes at a listener, and freeings (R2, R9, R10, R40, R95) -/

/-- What a participant hands on may take blocks from the pool. -/
theorem handTaken_kept {e : FrameEvent} (h : TableKept s₀ s) : TableKept s₀ (handTaken e s) := by
  cases e with
  | nothing => exact h
  | copies value count last =>
    simp only [handTaken]
    split
    · exact receiveCopies_kept h
    · exact h
  | malformed =>
    simp only [handTaken]
    split
    · exact receiveMalformed_kept h
    · exact h
  | cancelHeader | openFinal | cancelFinal => exact h.of_same (by simp [handTaken])

/-- A byte that is taken. -/
theorem takeByte_kept {b : BusByte} (h : TableKept s₀ s) : TableKept s₀ (takeByte b s) := by
  simp only [takeByte]
  split
  · exact h.of_same (by simp)
  · exact handTaken_kept (h.of_same (by simp))

/-- A participant that becomes ready may take the byte on offer. -/
theorem becomeReady_kept (h : TableKept s₀ s) : TableKept s₀ (becomeReady s) := by
  simp only [becomeReady]
  split
  · split
    · exact takeByte_kept h
    · exact h.of_same (by simp)
  · exact h

/-- Freed blocks join the pool, and a waiting participant may take some of them (R95). -/
theorem freeBlocks_kept {blocks : List Nat} (h : TableKept s₀ (returnToPool blocks s)) :
    TableKept s₀ (freeBlocks blocks s) := by
  cases blocks with
  | nil => exact h.of_same (by simp [freeBlocks])
  | cons b rest =>
    refine becomeReady_kept ?_
    simp only [renewRequest]
    split
    · exact storeCopies_kept h
    · exact h

/-- The blocks of the removed head record join the pool, and its slot is what a waiting participant may take (R126, R141). -/
theorem removeHeadRecord_kept (h : TableKept s₀ s) : TableKept s₀ (removeHeadRecord s) := by
  simp only [removeHeadRecord]
  split
  · exact h
  · rename_i r rest hrec
    have freed : TableKept s₀ (freeBlocks r.blocks { s with rm.records := rest }) := by
      refine freeBlocks_kept (h.of_reception rfl fun placed => ⟨?_, placed⟩)
      simp only [blocksBesideTable, recordBlocks, hrec, List.perm_iff_count]
      intro b
      simp only [returnToPool, constructionBlocks, List.flatMap_cons, List.count_append]
      omega
    split
    · rename_i waits
      exact becomeReady_kept (reserveSlot_kept freed (.inr waits))
    · exact freed

/-- TAKE. -/
theorem take_kept {b : BusByte} (h : TableKept s₀ s) : TableKept s₀ (take b s) := by
  simp only [take]
  split
  · exact takeByte_kept (h.of_same (by simp))
  · exact h.of_same (by simp)
  · exact h

/-- A participant that narrows may ask for a record slot. -/
theorem narrow_kept (h : TableKept s₀ s) : TableKept s₀ (narrow s) := by
  simp only [narrow]
  split
  · have stays : TableKept s₀ { s with fe.frame.standing := some .participant } :=
      h.of_same (by simp)
    refine becomeReady_kept ?_
    split
    · exact requestSlot_kept stays
    · exact stays
  · exact h.of_same (by simp)

/-- The abandonment of a frame, as it is handed on. -/
theorem handAbandonment_kept (h : TableKept s₀ s) : TableKept s₀ (handAbandonment s) := by
  refine rendezvousAbandonment_kept ?_
  split
  · exact h
  · exact receptionAbandonment_kept h

/-- An abandoned frame gives up its record. -/
theorem abandonFrame_kept (h : TableKept s₀ s) : TableKept s₀ (abandonFrame s) := by
  simp only [abandonFrame]
  split
  · exact h.of_same (by simp)
  · exact (handAbandonment_kept h).of_same (by simp)

/-- The withdrawal of a LAST byte may abandon a frame (R11, log 42). -/
theorem lastWithdrawn_kept (h : TableKept s₀ s) : TableKept s₀ (lastWithdrawn s) := by
  have guarded : TableKept s₀ { s with line.guard := some 0 } := h.of_same (by simp)
  simp only [lastWithdrawn]
  split
  · exact guarded
  · split
    · exact guarded
    · exact abandonFrame_kept guarded
    all_goals exact guarded.of_same (by simp)

/-- A participant that asserts PEND again narrows or becomes ready. -/
theorem releaseTaken_kept (h : TableKept s₀ s) : TableKept s₀ (releaseTaken s) := by
  rw [releaseTaken_eq]
  have prepares : TableKept s₀ (preparing s) := h.of_same (by simp [preparing])
  split
  · exact narrow_kept prepares
  · exact becomeReady_kept prepares

/-- OFFER_RELEASE_SENSED. -/
theorem offerReleaseSensed_kept (h : TableKept s₀ s) : TableKept s₀ (offerReleaseSensed s) := by
  have withdrawn {t : State} (ht : TableKept s₀ t) :
      TableKept s₀ (if observedLast t then lastWithdrawn t else t) := by
    split
    · exact lastWithdrawn_kept ht
    · exact ht
  have sensed : TableKept s₀ (restartSilence { s with line.sense.offer := false }) :=
    h.of_same (by simp)
  simp only [offerReleaseSensed]
  split
  · exact sensed
  · exact releaseTaken_kept (withdrawn sensed)
  · exact withdrawn sensed

/-- OWN_ASSERTION_SENSED. -/
theorem ownAssertionSensed_kept (h : TableKept s₀ s) : TableKept s₀ (ownAssertionSensed s) := by
  simp only [ownAssertionSensed]
  split
  · exact h.of_same (by simp)
  · cases s.arb.phase with
    | bidding =>
      exact (giveUpBid_kept (s := ownHeard s) (h.of_same (by simp [ownHeard]))).of_same
        (by simp [ownHeard])
    | off | standby | won | owner | outside => exact h.of_same (by simp)

/-- OWN_RELEASE_SENSED. -/
theorem ownReleaseSensed_kept {req : Bool} (h : TableKept s₀ s) :
    TableKept s₀ (ownReleaseSensed req s) := by
  have released {t : State} (ht : TableKept s₀ t) : TableKept s₀ (ownReleased t) := by
    simp only [ownReleased]
    split
    · split
      · exact (abandonFrame_kept ht).of_same (by simp)
      · exact (abandonFrame_kept ht).of_same (by simp)
      · exact abandonFrame_kept ht
    · exact ht
  have sensed : TableKept s₀ { s with line.sense.own := false, line.sense.req := req } :=
    h.of_same (by simp)
  simp only [ownReleaseSensed]
  split
  · exact released sensed
  · exact (released sensed).of_same (by simp)

/-- BUS_IDLE_SENSED. -/
theorem busIdleSensed_kept (h : TableKept s₀ s) : TableKept s₀ (busIdleSensed s) := by
  have released : TableKept s₀ (ownReleaseSensed false s) := ownReleaseSensed_kept h
  simp only [busIdleSensed]
  split
  · exact h
  · split
    · exact enterStandby_kept released
    · exact enterStandby_kept (giveUpBid_kept released)
    · exact enterStandby_kept (giveUpBid_kept released)
    all_goals exact released

/-- A frame that completes at a listener is handed on. -/
theorem completeElsewhere_kept (h : TableKept s₀ s) : TableKept s₀ (completeElsewhere s) := by
  have handed : TableKept s₀ (handCompletion s) := by
    refine rendezvousCompletion_kept ?_
    split
    · exact receptionCompletion_kept h
    · exact h
  have ended : TableKept s₀ (endFrameState (handCompletion s)) := handed.of_same (by simp)
  simp only [completeElsewhere]
  split
  · exact ended.of_same (by simp)
  · exact becomeReady_kept ended

/-! ### Attempts and their ends (R109–R119) -/

/-- A finished descriptor joins the completion list, and its blocks join the pool (R112). -/
theorem finishDescriptor_kept {i : Fin 16} {o : TxOutcome} (h : TableKept s₀ s)
    (hi : s.tm.table[i].state = .inFlight) : TableKept s₀ (finishDescriptor i o s) := by
  obtain ⟨nu, nn, nc, -⟩ := h.orders
  obtain ⟨iu, iN⟩ := h.orders.unqueued (i := i) (by rw [hi]; decide)
  have ic := h.orders.uncompleted (i := i) (by rw [hi]; decide)
  refine freeBlocks_kept (h.of_entry (i := i)
    (d := { s.tm.table[i] with
      state := .done, outcome := some o, completedAt := some s.ctl.clock, blocks := [] })
    rfl rfl (.stays nu (by simp [iu])) (.stays nn (by simp [iN])) (.tail nc ic rfl)
    (fun _ => ?_) fun _ => rfl)
  simp [returnToPool, setDescriptor]

/-- A descriptor in flight returns or is finished. -/
theorem endDescriptorAttempt_kept {i : Fin 16} {o : TxOutcome} (h : TableKept s₀ s)
    (hi : s.tm.table[i].state = .inFlight) : TableKept s₀ (endDescriptorAttempt i o s) := by
  simp only [endDescriptorAttempt]
  split
  case h_4 | h_5 =>
    split
    · exact queueAtHead_kept h (by rw [hi]; decide)
    · exact finishDescriptor_kept h hi
  all_goals exact finishDescriptor_kept h hi

/-- The end of a HELLO's attempt moves no descriptor. -/
theorem endHello_kept {f : SlotFrame} {o : TxOutcome} {atSource : Bool} (h : TableKept s₀ s) :
    TableKept s₀ (endHello f o atSource s) := by
  have joins {t : State} (ht : TableKept s₀ t) : TableKept s₀ (stationJoined t) := by
    simp only [stationJoined]
    split <;> exact ht.of_same (by simp)
  have awaits {t : State} {r : StationReason} (ht : TableKept s₀ t) :
      TableKept s₀ (awaitFault r t) := by
    simp only [awaitFault]
    split <;> exact ht.of_same (by simp)
  have emptied : TableKept s₀ (setSlot none s) := h.of_same (by simp)
  cases o with
  | sent | noListener => exact joins emptied
  | clash => exact emptied
  | stalled | broken =>
    simp only [endHello]
    split
    · exact awaits emptied
    · split
      · exact h.of_same (by simp)
      · exact awaits emptied

/-- The end of an OPEN's attempt moves no descriptor. -/
theorem endOpen_kept {f : SlotFrame} {group tag : Byte} {o : TxOutcome} (h : TableKept s₀ s) :
    TableKept s₀ (endOpen f group tag o s) := by
  cases o with
  | sent | noListener | clash => exact h.of_same (by simp [endOpen])
  | stalled | broken =>
    simp only [endOpen]
    split <;> exact h.of_same (by simp)

/-- The end of a CANCEL's attempt may close the view. -/
theorem endCancel_kept {f : SlotFrame} {tag : Byte} {o : TxOutcome} (h : TableKept s₀ s) :
    TableKept s₀ (endCancel f tag o s) := by
  cases o with
  | sent | clash => exact h.of_same (by simp [endCancel])
  | noListener => exact closeNoListener_kept (h.of_same (by simp))
  | stalled | broken =>
    simp only [endCancel]
    split <;> exact h.of_same (by simp)

/-- The end of an attempt. -/
theorem endAttempt_kept {o : TxOutcome} {atSource : Bool} (h : TableKept s₀ s) :
    TableKept s₀ (endAttempt o atSource s) := by
  have forgotten : TableKept s₀ { s with tm.handed := none } := h.of_same (by simp)
  simp only [endAttempt]
  split
  · rename_i i hi
    exact endDescriptorAttempt_kept forgotten (inFlightFrame_state hi)
  · split
    · simp only [endSlotAttempt]
      split
      · exact forgotten.of_same (by simp)
      · split
        · exact endHello_kept forgotten
        · exact endOpen_kept forgotten
        · exact endCancel_kept forgotten
    · exact forgotten
  · exact forgotten

/-- The talker that rests again moves no descriptor. -/
theorem leaveTalker_kept (h : TableKept s₀ s) : TableKept s₀ (leaveTalker s) :=
  h.of_same (by simp)

/-- NO_LISTENER. -/
theorem noListener_kept (h : TableKept s₀ s) : TableKept s₀ (noListener s) := by
  have sensed : TableKept s₀ { s with line.sense.wait := false, line.sense.pend := false } :=
    h.of_same (by simp)
  simp only [noListener]
  split
  · split
    · exact sensed
    · have released : TableKept s₀ (releaseByte
          { s with line.sense.wait := false, line.sense.pend := false }) := h.of_same (by simp)
      exact leaveTalker_kept
        (endAttempt_kept ((handAbandonment_kept released).of_same (by simp)))
  · exact sensed

/-- COMPLETION_WINDOW_END. -/
theorem completionWindowEnd_kept (h : TableKept s₀ s) :
    TableKept s₀ (completionWindowEnd s) := by
  simp only [completionWindowEnd]
  split
  · exact h
  · split
    · split
      · exact h
      · have ended : TableKept s₀ (rendezvousCompletion s.fe.frame
            (endAttempt (s.tm.handed.getD .sent) false s)) :=
          rendezvousCompletion_kept (endAttempt_kept h)
        exact ended.of_same (by simp [completeAtTalker])
    · exact h
    · exact completeElsewhere_kept h

/-! ### Breaks (R16–R19) and the ways off the bus (R82, R145, R164) -/

/-- BREAK_EDGE at a talker. -/
theorem breakTalker_kept (h : TableKept s₀ s) : TableKept s₀ (breakTalker s) := by
  have rests {t : State} (ht : TableKept s₀ t) : TableKept s₀ (enterOutside t) :=
    ht.of_same (by simp)
  have stopped : TableKept s₀ (talkerStopped (guardAtBreak s) s) :=
    h.of_same (by simp [talkerStopped])
  rw [breakTalker_eq]
  refine rests ?_
  split
  · exact stopped
  · exact endAttempt_kept ((handAbandonment_kept stopped).of_same (by simp))

/-- BREAK_EDGE. -/
theorem breakEdge_kept (h : TableKept s₀ s) : TableKept s₀ (breakEdge s) := by
  have bids {t : State} (ht : TableKept s₀ t) : TableKept s₀ (breakArbiter t) := by
    simp only [breakArbiter]
    split
    · exact giveUpBid_kept ht
    · exact giveUpBid_kept ht
    · exact ht.of_same (by simp)
    all_goals exact ht
  simp only [breakEdge, breakRole]
  split
  · exact h
  · have bid := bids (t := holdFire { s with
      line.sense.brk := true, line.measure := .timing 0, line.heldFrame := [] })
      (h.of_same (by simp))
    split
    · exact breakTalker_kept bid
    · exact (abandonFrame_kept bid).of_same (by simp [breakParticipant])
    · exact (abandonFrame_kept bid).of_same (by simp [breakParticipant])
    · exact bid

/-- The entry into OFFLINE or FAULTED. -/
theorem leaveBus_kept {target : StationState} {reason : StationReason} (h : TableKept s₀ s) :
    TableKept s₀ (leaveBus target reason s) := by
  have discarded {t : State} (ht : TableKept s₀ t) :
      TableKept s₀ (if t.rm.state = .idle then t else receptionAbandonment t) := by
    split
    · exact ht
    · exact receptionAbandonment_kept ht
  have emptied := emptySlotAtEntry_kept
    (viewLeavesBus_kept (discarded (returnSelected_kept h)))
  exact emptied.of_same (by simp [leaveBus])

/-- After an action that clears the table and the records, every block is in the pool. -/
theorem TableKept.of_cleared {t : State} (ht : t.tm = TransmitManager.cleared)
    (hr : t.rm = ReceiveManager.cleared)
    (hp : BlocksOwned s₀ → t.mem.pool.Perm (List.range Config.blockCount)) : TableKept s₀ t := by
  have free (i : Fin 16) : t.tm.table[i] = Descriptor.empty := by
    simp [ht, TransmitManager.cleared]
  have held : descriptorBlocks t = [] := by
    simp only [descriptorBlocks, ht]
    decide
  refine ⟨⟨?_, ?_, ?_, fun i => ?_⟩,
    fun h₀ => ⟨?_, fun i _ => by rw [free]; rfl, fun _ => by rw [hr]; rfl⟩⟩
  · simp [ht, TransmitManager.cleared]
  · simp [ht, TransmitManager.cleared]
  · simp [ht, TransmitManager.cleared]
  · rw [free]
    simp [ht, TransmitManager.cleared, Descriptor.empty]
  · simpa [ownedBlocks, held, recordBlocks, constructionBlocks, hr, ReceiveManager.cleared]
      using hp h₀

/-- The clearing of a soft reset puts every block in the pool (R164). -/
theorem softResetClearing_kept (h : TableKept s₀ s) : TableKept s₀ (softResetClearing s) := by
  have pool : (softResetClearing s).mem.pool =
      s.mem.pool ++ (descriptorBlocks s ++ recordBlocks s ++ constructionBlocks s) := by
    simp only [softResetClearing]
    split <;> rfl
  refine .of_cleared ?_ ?_ fun h₀ => ?_
  · simp only [softResetClearing]; split <;> rfl
  · simp only [softResetClearing]; split <;> rfl
  · rw [pool]
    simpa [ownedBlocks] using (h.owned h₀).1

/-- Power-on values (R97, R162). -/
theorem powerOn_kept {straps : StationNumber} {p : PowerState} {n : Nat} {q : List Instr} :
    TableKept s₀ (State.powerOn straps p n q) := .of_cleared rfl rfl fun _ => .refl _

/-- BRK_RELEASE. -/
theorem brkRelease_kept {own req : Bool} (h : TableKept s₀ s) :
    TableKept s₀ (brkRelease own req s) := by
  have goesOn {t : State} (ht : TableKept s₀ t) : TableKept s₀ (releaseOrdinary t) := by
    have viewed : TableKept s₀ (breakReleasedAtView t) := breakReleasedAtView_kept ht
    simp only [releaseOrdinary]
    split
    · exact leaveBus_kept viewed
    · have rested : TableKept s₀ (rejoinAtRelease (breakReleasedAtView t)) :=
        viewed.of_same (by simp)
      simp only [arbiterAtRelease]
      split
      · exact enterStandby_kept rested
      · exact rested
  have classified : TableKept s₀ (classifyAtRelease { s with
      line.sense.brk := false, line.sense.own := own, line.sense.req := req }) :=
    h.of_same (by simp)
  simp only [brkRelease]
  split
  · split
    · exact softResetClearing_kept classified
    · exact goesOn classified
  · exact h

/-- LEFT. -/
theorem left_kept (h : TableKept s₀ s) : TableKept s₀ (left s) := by
  simp only [left]
  split
  · exact leaveBus_kept h
  · exact h

/-- JOIN_ABANDONED. -/
theorem joinAbandoned_kept (h : TableKept s₀ s) : TableKept s₀ (joinAbandoned s) := by
  simp only [joinAbandoned]
  split
  · exact leaveBus_kept h
  · exact h

/-- The action that begins participation (R150). -/
theorem beginParticipation_kept (h : TableKept s₀ s) : TableKept s₀ (beginParticipation s) := by
  have leaves {t : State} (ht : TableKept s₀ t) : TableKept s₀ (arbiterLeavesOff t) := by
    simp only [arbiterLeavesOff]
    split
    · exact ht.of_same (by simp)
    · exact enterStandby_kept ht
  refine placeSlotFrame_kept (TableKept.of_same (leaves (t := resumeSilence (restAsParticipant
    { s with ctl.joinPhase := some .participating })) (h.of_same (by simp))) (by simp))

/-- PARTICIPATION_BEGIN. -/
theorem participationBegin_kept {req trg : Bool} (h : TableKept s₀ s) :
    TableKept s₀ (participationBegin req trg s) := by
  simp only [participationBegin]
  split
  · exact beginParticipation_kept (h.of_same (by simp))
  · exact h

/-! ### The host's commands (R102–R163) -/

/-- SEND's last tests: the entry taken is FREE, and the pool has the blocks it needs (R90, R102). -/
theorem sendTest_free {tag cls destination : Byte} {length : Nat} {i : Fin 16}
    (h : sendTest tag cls destination length s = .ok i) : s.tm.table[i].state = .free := by
  simp only [sendTest] at h
  split_ifs at h
  · split at h <;> cases h
  · split at h
    · cases h
    · rename_i found
      obtain rfl := Except.ok.inj h
      simpa using findDescriptor_meets found

/-- SEND gives a FREE entry blocks from the head of the pool (R90). -/
theorem acceptSend_kept {i : Fin 16} {tag cls destination flags : Byte} {length : Nat}
    (h : TableKept s₀ s) (hi : s.tm.table[i].state = .free) :
    TableKept s₀ (acceptSend i tag cls destination flags length s) := by
  refine h.of_unordered (i := i) (by rw [hi]; decide) (by simp) rfl rfl (fun unheld => ?_) (by simp)
  rw [unheld i (.inl hi), List.append_nil]
  exact List.perm_append_comm.trans (.of_eq (List.take_append_drop _ _))

/-- SEND. -/
theorem cmdSend_kept {tag cls destination flags lengthHigh lengthLow : Byte}
    (h : TableKept s₀ s) :
    TableKept s₀ (cmdSend tag cls destination flags lengthHigh lengthLow s).1 := by
  simp only [cmdSend]
  split
  · exact h
  · rename_i i accepted
    have taken := acceptSend_kept (tag := tag) (cls := cls) (destination := destination)
      (flags := flags) (length := (word16 lengthHigh lengthLow).toNat) h (sendTest_free accepted)
    split
    · refine askArbiter_kept (queueAtTail_kept taken ?_)
      simp [acceptSend]
    · exact taken

/-- A FILLING descriptor becomes FREE, and its blocks join the pool (R103). -/
theorem freeDescriptor_kept {i : Fin 16} (h : TableKept s₀ s)
    (hi : s.tm.table[i].state = .filling) : TableKept s₀ (freeDescriptor i s) := by
  refine freeBlocks_kept (h.of_unordered (i := i) (d := Descriptor.empty)
    (by rw [hi]; decide) (by decide) rfl rfl (fun _ => ?_) fun _ => rfl)
  simp [returnToPool, setDescriptor, Descriptor.empty]

/-- WITHDRAW. -/
theorem cmdWithdraw_kept {tag : Byte} (h : TableKept s₀ s) :
    TableKept s₀ (cmdWithdraw tag s).1 := by
  simp only [cmdWithdraw]
  split
  · exact h
  · split
    · rename_i i _ _ queued
      refine freeBlocks_kept (h.of_queued (i := i) (d := Descriptor.empty) queued (by decide)
        rfl rfl (fun _ => ?_) fun _ => rfl)
      simp [returnToPool, setDescriptor, leaveQueue, Descriptor.empty]
    all_goals exact h

/-- The end of a REAP: the head of the completion list becomes FREE, and held no blocks (R93, R107). -/
theorem reapRead_kept (h : TableKept s₀ s) : TableKept s₀ (reapRead s) := by
  simp only [reapRead]
  split
  · exact h
  · rename_i i rest hc
    obtain ⟨nu, nn, nc, agree⟩ := h.orders
    have done : s.tm.table[i].state = .done := (agree i).2.2.1 (by simp [hc])
    obtain ⟨iu, iN⟩ := h.orders.unqueued (i := i) (by rw [done]; decide)
    refine h.of_entry (i := i) (d := Descriptor.empty) rfl rfl (.stays nu ?_) (.stays nn ?_) ?_
      (fun unheld => ?_) fun _ => rfl
    · simp [iu, Descriptor.empty]
    · simp [iN, Descriptor.empty]
    · rw [hc] at nc ⊢
      exact .beheaded nc (by decide)
    · rw [unheld i (.inr done)]
      exact .refl _

/-- SEND's data phase abandoned. -/
theorem abandonSend_kept (h : TableKept s₀ s) : TableKept s₀ (abandonSend s) := by
  simp only [abandonSend]
  split
  · rename_i i found
    exact freeDescriptor_kept h (by simpa using findDescriptor_meets found)
  · exact h

/-- JOIN. -/
theorem cmdJoin_kept (h : TableKept s₀ s) : TableKept s₀ (cmdJoin s).1 := by
  simp only [cmdJoin]
  split
  · simp only
    split
    · exact beginParticipation_kept (h.of_same (by simp))
    · exact h.of_same (by simp)
  · exact h

/-- LEAVE. -/
theorem cmdLeave_kept (h : TableKept s₀ s) : TableKept s₀ (cmdLeave s).1 := by
  have asked : TableKept s₀ { s with ctl.leaveRequested := true } := h.of_same (by simp)
  simp only [cmdLeave]
  split
  · split
    · exact h
    · exact left_kept (h.of_same (by simp))
  · simp only [abandonJoin]
    split
    · exact h
    · split
      · exact joinAbandoned_kept (removeSlotFrame_kept asked)
      · exact leaveBus_kept asked
  all_goals exact h

/-- CONFIGURE. -/
theorem cmdConfigure_kept {stall silence retry reserve notify age unicast broadcast : Byte}
    (h : TableKept s₀ s) :
    TableKept s₀ (cmdConfigure stall silence retry reserve notify age unicast broadcast s).1 := by
  simp only [cmdConfigure]
  split
  · exact h
  · split
    · split
      · exact reevaluateAged_kept (h.of_same (by simp))
      · exact h
    · exact h

/-- Every command of the host at its owner. -/
theorem ownerAction_kept {c : HostCommand} {p : List Byte} (h : TableKept s₀ s) :
    TableKept s₀ (ownerAction c p s).1 := by
  simp only [ownerAction]
  cases c with
  | configure => exact cmdConfigure_kept h
  | join => exact cmdJoin_kept h
  | leave => exact cmdLeave_kept h
  | send => exact cmdSend_kept h
  | withdraw => exact cmdWithdraw_kept h
  | discard =>
    simp only [cmdDiscard]
    split
    · exact h
    · exact removeHeadRecord_kept h
  | openRdv =>
    simp only [cmdOpen]
    split_ifs
    case neg => exact placeSlotFrame_kept h
    all_goals exact h
  | cancel =>
    simp only [cmdCancel]
    split_ifs
    case neg => exact placeCancel_kept h
    all_goals exact h
  | softReset =>
    simp only [cmdSoftReset]
    split
    case h_4 | h_5 => exact softResetClearing_kept h
    all_goals exact h.of_same (by simp)
  | setGroup | arm | reap | fetch | outcome | causes | acknowledge | setMask | snapshot =>
    exact h.of_same (by simp)

/-- A command handed over (R168, R169). -/
theorem deliver_kept {code : Byte} {p : List Byte} (h : TableKept s₀ s) :
    TableKept s₀ (deliver code p s) := by
  have answered : TableKept s₀ (answerTo code p s).1 := by
    simp only [answerTo]
    split
    · exact ownerAction_kept h
    · exact h
  simp only [deliver]
  split
  · exact answered
  · exact answered.of_same (by simp)

/-- A payload byte of SEND: the last one queues the FILLING descriptor (R103, R171). -/
theorem payloadByte_kept {b : Byte} (h : TableKept s₀ s) : TableKept s₀ (payloadByte b s) := by
  simp only [payloadByte]
  split
  · rename_i i found
    have filling : s.tm.table[i].state = .filling := by simpa using findDescriptor_meets found
    have placed : TableKept s₀ (placePayloadByte i b s) :=
      h.of_same (by simp [placePayloadByte])
    split
    · refine (askArbiter_kept (queueAtTail_kept placed (i := i) ?_)).of_same (by simp)
      simp only [placePayloadByte]
      rw [filling]
      decide
    · exact placed.of_same (by simp)
  · exact h

/-- A DATA write, in every phase of the port. -/
theorem dataWrite_kept {b : Byte} (h : TableKept s₀ s) : TableKept s₀ (dataWrite b s) := by
  simp only [dataWrite]
  split
  · simp only [commandByte]
    split
    · exact h.of_same (by simp)
    all_goals exact deliver_kept h
  · simp only [parameterByte]
    split
    · exact deliver_kept h
    · exact h.of_same (by simp)
  · exact payloadByte_kept h
  all_goals exact h.of_same (by simp)

/-- A DATA read, in every phase of the port. -/
theorem dataRead_kept (h : TableKept s₀ s) : TableKept s₀ (dataRead s) := by
  have ended {b : Byte} {t : State} (ht : TableKept s₀ t) : TableKept s₀ (endByRead b t) :=
    ht.of_same (by simp)
  simp only [dataRead]
  split
  · simp only [resultByte, resultRead, fetchResultRead]
    split
    · split
      · exact ended h
      · split
        · exact ended (reapRead_kept h)
        · split
          · exact ended h
          · split
            · exact ended (removeHeadRecord_kept h)
            · exact h.of_same (by simp)
        · exact ended (h.of_same (by simp))
        · exact ended h
    · exact h.of_same (by simp)
  · simp only [payloadRead]
    split
    · exact ended (removeHeadRecord_kept h)
    · exact h.of_same (by simp)
  all_goals exact h.of_same (by simp)

/-- ABANDON. -/
theorem abandon_kept (h : TableKept s₀ s) : TableKept s₀ (abandon s) := by
  simp only [abandon]
  split
  case h_3 => exact (abandonSend_kept h).of_same (by simp)
  case h_4 => split <;> exact h.of_same (by simp)
  all_goals exact h.of_same (by simp)

/-- BUSY_END. -/
theorem busyEnd_kept (h : TableKept s₀ s) : TableKept s₀ (busyEnd s) := by
  simp only [busyEnd]
  split
  · split
    · exact (abandonSend_kept h).of_same (by simp)
    · exact h.of_same (by simp)
  · split <;> exact h.of_same (by simp)
  · exact h

/-- A whole command, in every phase of the port. -/
theorem giveCommand_kept {code : Byte} {p : List Byte} (h : TableKept s₀ s) :
    TableKept s₀ (giveCommand code p s) := by
  have written (bytes : List Byte) : ∀ t : State, TableKept s₀ t →
      TableKept s₀ (bytes.foldl (fun t b => dataWrite b t) t) := by
    induction bytes with
    | nil => exact fun _ ht => ht
    | cons b rest ih => exact fun _ ht => ih _ (dataWrite_kept ht)
  simp only [giveCommand]
  split
  · exact deliver_kept h
  · exact written _ _ h

end Kept

/-! ### One action, one period, one step -/

/-- An action keeps the frame table and the blocks if its change does. -/
theorem act_keepsTable {change : State → State} {s₀ s t : State} (h : TableKept s₀ s)
    (hc : TableKept s₀ s → TableKept s₀ (change s)) (e : act change s = .next t) :
    TableKept s₀ t := by
  simp only [act] at e
  split at e
  · obtain rfl := Host.Outcome.next.inj e
    exact (hc h).of_same (by simp)
  · obtain rfl := Host.Outcome.next.inj e
    exact h

/-- An action on the bus keeps them if its change does. -/
theorem actOnBus_keepsTable {change : State → State} {s₀ s t : State} (h : TableKept s₀ s)
    (hc : TableKept s₀ s → TableKept s₀ (change s)) (e : actOnBus change s = .next t) :
    TableKept s₀ t := by
  refine act_keepsTable h (fun h => ?_) e
  split
  · exact hc h
  · exact h

/-- An action on an edge keeps them if its change does. -/
theorem actOnLine_keepsTable {note : PinLevels → PinLevels} {change : State → State}
    {s₀ s t : State} (h : TableKept s₀ s) (hc : TableKept s₀ s → TableKept s₀ (change s))
    (e : actOnLine note change s = .next t) : TableKept s₀ t := by
  refine act_keepsTable h (fun h => ?_) e
  split
  · exact hc h
  · exact h.of_same (by simp)

/-- A period of the clock moves no descriptor and no block. -/
theorem tick_keepsTable {s₀ s : State} (h : TableKept s₀ s) : TableKept s₀ (tick s) := by
  simp only [tick]
  split
  · exact h.of_same (by simp [passTime])
  · exact h

/-- Every command keeps the orders in agreement and every block with its owner. -/
theorem exec_keepsTable {c : Instr} {s₀ s t : State} (h : TableKept s₀ s)
    (e : exec c s = .next t) : TableKept s₀ t := by
  cases c with
  | commandByteWrite b | parameterByteWrite b | payloadByteWrite b =>
    exact act_keepsTable h dataWrite_kept e
  | resultByteRead | payloadByteRead => exact act_keepsTable h dataRead_kept e
  | busyEnd => exact act_keepsTable h busyEnd_kept e
  | abandon b => exact act_keepsTable h abandon_kept e
  | protocolError a =>
    cases a with
    | write b => exact act_keepsTable h dataWrite_kept e
    | read => exact act_keepsTable h dataRead_kept e
  | configure | setGroup | join | leave | send | withdraw | reap | fetch | discard | openRendezvous
  | arm | cancel | outcome | causes | acknowledge | setMask | snapshot | softReset =>
    exact act_keepsTable h giveCommand_kept e
  | armPinEdge | firePulseEnd => exact act_keepsTable h (fun h => h.of_same (by simp)) e
  | deadlineExpiry => exact act_keepsTable h deadlineExpiry_kept e
  | agedFlagSet place => exact act_keepsTable h agedFlagSet_kept e
  | left => exact act_keepsTable h left_kept e
  | joinAbandoned => exact act_keepsTable h joinAbandoned_kept e
  | resetAssert =>
    simp only [exec, execResetAssert] at e
    split at e
    · obtain rfl := Host.Outcome.next.inj e
      exact h
    · obtain rfl := Host.Outcome.next.inj e
      exact powerOn_kept
  | resetRelease straps =>
    simp only [exec, execResetRelease] at e
    split at e
    · obtain rfl := Host.Outcome.next.inj e
      exact h
    · obtain rfl := Host.Outcome.next.inj e
      exact powerOn_kept
  | lossOfPower =>
    obtain rfl := Host.Outcome.next.inj e
    exact powerOn_kept
  | ownAssertionSensed =>
    simp only [exec, execOwnAssertionSensed] at e
    exact actOnLine_keepsTable h ownAssertionSensed_kept e
  | ownReleaseSensed req =>
    simp only [exec, execOwnReleaseSensed] at e
    exact actOnLine_keepsTable h ownReleaseSensed_kept e
  | busIdleSensed =>
    simp only [exec, execBusIdleSensed] at e
    exact actOnLine_keepsTable h busIdleSensed_kept e
  | reqSensed =>
    simp only [exec, execReqSensed] at e
    exact actOnLine_keepsTable h reqSensed_kept e
  | breakEdge =>
    simp only [exec, execBreakEdge] at e
    exact actOnLine_keepsTable h breakEdge_kept e
  | brkRelease own req =>
    simp only [exec, execBrkRelease] at e
    exact actOnLine_keepsTable h brkRelease_kept e
  | participationBegin req trg =>
    simp only [exec, execParticipationBegin] at e
    exact actOnLine_keepsTable h participationBegin_kept e
  | trgReleaseSensed =>
    simp only [exec, execTrgReleaseSensed] at e
    exact actOnLine_keepsTable h (fun h => h.of_same (by simp)) e
  | take b => exact actOnBus_keepsTable h take_kept e
  | offerReleaseSensed => exact actOnBus_keepsTable h offerReleaseSensed_kept e
  | noListener => exact actOnBus_keepsTable h noListener_kept e
  | completionWindowEnd => exact actOnBus_keepsTable h completionWindowEnd_kept e
  | arbitrationDecision d => exact actOnBus_keepsTable h arbitrationDecision_kept e
  | wonHoldEnd => exact actOnBus_keepsTable h wonHoldEnd_kept e
  | roundGapExpiry => exact actOnBus_keepsTable h roundGapExpiry_kept e
  | fireDelayEnd => exact actOnBus_keepsTable h fireDelayEnd_kept e
  | clearBreakClassification =>
    exact actOnBus_keepsTable h clearBreakClassification_kept e
  | readbackCompare b =>
    refine actOnBus_keepsTable h (fun h => h.of_same ?_) e
    simp only [readbackCompare, clashFound]
    (repeat' split) <;> simp [handOutcome]
  | stallTimerExpiry =>
    refine actOnBus_keepsTable h (fun h => h.of_same ?_) e
    simp only [stallTimerExpiry]
    (repeat' split) <;> simp [handOutcome]
  | observe | talkerReadySensed | offerAssert | pendReleaseSensed | ownHoldEnd | silenceTimerExpiry
  | breakGuardEnd | breakPulseEnd | bidLineChange | clearBreakDelayEnd =>
    exact actOnBus_keepsTable h (fun h => h.of_same (by simp)) e

end Sys2Proof.Machine

open Sys2Proof Sys2Proof.Machine

/-- Settles O58: each operation replaces one entry of the table while the orders follow it, or moves blocks among the pool, the descriptors and the records; a command's action is its operations, and a period of the clock moves nothing. The three counts are the lengths of the owners' lists. -/
theorem stepKeepsOrdersAndBlocks : Obligations.StepKeepsOrdersAndBlocks := by
  have kept {s t : State} (h : OrdersAgree s) (e : step s = .next t) : TableKept s t := by
    simp only [step] at e
    split at e
    · rename_i c rest _
      have taken : TableKept s { s with pending := rest } := TableKept.of_same (.refl h) (by simp)
      exact exec_keepsTable taken e
    · obtain rfl := Host.Outcome.next.inj e
      exact tick_keepsTable (.refl h)
  exact ⟨fun s t h e => (kept h e).orders, fun s t h hb e => (kept h e).owned hb,
    fun s h => h.counts⟩
end

section
/-! The host at the frame table: SEND with its payload bytes, WITHDRAW, and the readers REAP, FETCH and OUTCOME (R86, R87, R90, R93, R102, R103, R105, R107, R138, R171, R180–R182). -/

namespace Sys2Proof.Machine

open Sys2Proof

/-! ### The tests of SEND (R102) -/

/-- SEND's parameters are in their ranges. -/
theorem sendParamsBad_good {cls destination : Byte} {c : TxClass} {length : Nat} {s : State}
    (hc : classOfCode cls = some c) (hd : isDefinedAddress destination = true)
    (hn : destination ≠ numberByte s.ctl.number) (hl : length ≤ 1024) :
    sendParamsBad cls destination length s = false := by
  simp [sendParamsBad, hc, hd, hn, hl]

/-- A parameter of SEND is out of its range. -/
theorem sendParamsBad_bad {cls destination : Byte} {length : Nat} {s : State}
    (h : classOfCode cls = none ∨ isDefinedAddress destination = false ∨
      destination = numberByte s.ctl.number ∨ 1024 < length) :
    sendParamsBad cls destination length s = true := by
  simpa [sendParamsBad, or_assoc] using h

/-- A descriptor in use carries the tag. -/
theorem carries_iff {tag : Byte} {d : Descriptor} :
    (d.state != .free && d.tag == tag) = true ↔ d.state ≠ .free ∧ d.tag = tag := by
  simp

/-- A descriptor is FREE or carries another tag. -/
theorem not_carries_iff {tag : Byte} {d : Descriptor} :
    (d.state != .free && d.tag == tag) = false ↔ (d.state ≠ .free → d.tag ≠ tag) := by
  simp

/-- No descriptor in use carries the tag. -/
theorem findDescriptor_unused {tag : Byte} {s : State}
    (h : ∀ j : Fin 16, s.tm.table[j].state ≠ .free → s.tm.table[j].tag ≠ tag) :
    findDescriptor s (fun d => d.state != .free && d.tag == tag) = none :=
  findDescriptor_none.2 fun j => not_carries_iff.2 (h j)

section Test

variable {tag cls destination : Byte} {length : Nat} {s : State}

/-- The first test: a station in FAULTED takes no SEND. -/
theorem sendTest_faulted (h : s.ctl.state = .faulted) :
    sendTest tag cls destination length s = .error .badState := by
  simp [sendTest, h]

/-- The second test: the parameters. -/
theorem sendTest_badParam (hf : s.ctl.state ≠ .faulted)
    (hp : sendParamsBad cls destination length s = true) :
    sendTest tag cls destination length s = .error .badParam := by
  simp [sendTest, hf, hp]

/-- The third test: a descriptor in use carries the tag. -/
theorem sendTest_dupTag {i : Fin 16} (hf : s.ctl.state ≠ .faulted)
    (hp : sendParamsBad cls destination length s = false) (hi : s.tm.table[i].state ≠ .free)
    (ht : s.tm.table[i].tag = tag) :
    sendTest tag cls destination length s = .error .dupTag := by
  have found : (findDescriptor s (fun d => d.state != .free && d.tag == tag)).isSome := by
    rw [← Option.ne_none_iff_isSome]
    intro unused
    exact not_carries_iff.1 (findDescriptor_none.1 unused i) hi ht
  simp [sendTest, hf, hp, found]

/-- The fourth test: no entry is FREE. -/
theorem sendTest_tableFull (hf : s.ctl.state ≠ .faulted)
    (hp : sendParamsBad cls destination length s = false)
    (h : ∀ i : Fin 16, s.tm.table[i].state ≠ .free ∧ s.tm.table[i].tag ≠ tag) :
    sendTest tag cls destination length s = .error .tableFull := by
  have unused := findDescriptor_unused fun j _ => (h j).2
  have full : findDescriptor s (·.state == .free) = none :=
    findDescriptor_none.2 fun j => by simpa using (h j).1
  simp [sendTest, hf, hp, unused, full]

/-- The last test: the quota or the pool does not reach. -/
theorem sendTest_noSpace {i : Fin 16} (hf : s.ctl.state ≠ .faulted)
    (hp : sendParamsBad cls destination length s = false) (hi : s.tm.table[i].state = .free)
    (ht : ∀ j : Fin 16, s.tm.table[j].state ≠ .free → s.tm.table[j].tag ≠ tag)
    (hb : blocksRefused (blocksNeeded length) s = true) :
    sendTest tag cls destination length s = .error .noSpace := by
  have unused := findDescriptor_unused ht
  cases free : findDescriptor s (·.state == .free) with
  | none => exact absurd hi (by simpa using findDescriptor_none.1 free i)
  | some j => simp [sendTest, hf, hp, unused, free, hb]

/-- With every test passed the frame takes the lowest-numbered FREE entry. -/
theorem sendTest_lowest {i : Fin 16} (hf : s.ctl.state ≠ .faulted)
    (hp : sendParamsBad cls destination length s = false)
    (ht : ∀ j : Fin 16, s.tm.table[j].state ≠ .free → s.tm.table[j].tag ≠ tag)
    (hi : s.tm.table[i].state = .free)
    (low : ∀ j : Fin 16, j < i → s.tm.table[j].state ≠ .free)
    (hb : blocksRefused (blocksNeeded length) s = false) :
    sendTest tag cls destination length s = .ok i := by
  have unused := findDescriptor_unused ht
  have free : findDescriptor s (·.state == .free) = some i :=
    findDescriptor_lowest (by simpa using hi) fun j hj => by simpa using low j hj
  simp [sendTest, hf, hp, unused, free, hb]

end Test

/-! ### What SEND answers (R90, R102, R103) -/

section Send

variable {tag cls destination flags high low : Byte} {s : State}

/-- SEND refused: nothing changes. -/
theorem cmdSend_refused {st : Status}
    (h : sendTest tag cls destination (word16 high low).toNat s = .error st) :
    cmdSend tag cls destination flags high low s = (s, statusReply st) := by
  simp [cmdSend, h]

/-- SEND accepted with a payload to come. -/
theorem cmdSend_fills {c : TxClass} {i : Fin 16} (hc : classOfCode cls = some c)
    (h : sendTest tag cls destination (word16 high low).toNat s = .ok i)
    (hl : 1 ≤ (word16 high low).toNat) :
    cmdSend tag cls destination flags high low s =
      ({ s with
        tm.table := s.tm.table.set i
          { state := .filling, tag := tag, cls := c, destination := destination,
            compress := flags.getLsbD 0, length := (word16 high low).toNat,
            blocks := s.mem.pool.take (((word16 high low).toNat + 63) / 64), attempts := 0,
            outcome := none, completedAt := none }
        mem.pool := s.mem.pool.drop (((word16 high low).toNat + 63) / 64) },
        .dataIn (word16 high low).toNat) := by
  simp only [cmdSend, h]
  rw [if_neg (by omega)]
  simp only [acceptSend, setDescriptor, hc, Option.getD_some, blocksNeeded, Config.blockBytes,
    Nat.add_one_sub_one]

/-- SEND accepted of a frame of length 0, which holds no blocks. -/
theorem cmdSend_queues {c : TxClass} {i : Fin 16} (hc : classOfCode cls = some c)
    (h : sendTest tag cls destination (word16 high low).toNat s = .ok i)
    (hl : (word16 high low).toNat = 0) :
    cmdSend tag cls destination flags high low s =
      (askArbiter { s with
        tm.table := s.tm.table.set i
          { state := .queued, tag := tag, cls := c, destination := destination,
            compress := flags.getLsbD 0, length := 0, blocks := [], attempts := 0,
            outcome := none, completedAt := none }
        tm.urgent := if c = .urgent then s.tm.urgent ++ [i] else s.tm.urgent
        tm.normal := if c = .normal then s.tm.normal ++ [i] else s.tm.normal },
        statusReply .ok) := by
  simp only [cmdSend, h]
  rw [if_pos hl, queueAtTail_eq]
  simp [acceptSend, setDescriptor, hc, hl, blocksNeeded, Config.blockBytes]

end Send

/-- The packet memory refuses the blocks a length needs when the quota or the pool does not reach (R90). -/
theorem blocksRefused_iff (length : Nat) (s : State) :
    blocksRefused (blocksNeeded length) s = true ↔
      128 - s.ctl.configuration.receiveReserve < transmitHeld s + (length + 63) / 64 ∨
        s.mem.pool.length < (length + 63) / 64 :=
  Bool.or_eq_true_iff.trans (or_congr decide_eq_true_iff decide_eq_true_iff)

/-! ### A payload byte in DATA_IN (R87, R103, R171) -/

section Payload

variable {b : Byte} {s : State} {i : Fin 16} {a : Nat}

/-- The payload byte goes to its address. -/
theorem placePayloadByte_at
    (ha : payloadAddress s.tm.table[i].blocks (s.tm.table[i].length - s.port.dataInCount) = some a) :
    placePayloadByte i b s = { s with mem.cells := Memory.write s.mem.cells a b } := by
  simp only [placePayloadByte]
  rw [writePayload_at ha]

/-- In DATA_IN a DATA write is the next payload byte. -/
theorem dataWrite_payload (h : s.port.phase = .dataIn) : dataWrite b s = payloadByte b s := by
  simp [dataWrite, h]

/-- A payload byte that is not the last. -/
theorem payloadByte_next (hi : findDescriptor s (·.state == .filling) = some i)
    (hn : 2 ≤ s.port.dataInCount) :
    payloadByte b s = { placePayloadByte i b s with
      port.dataInCount := s.port.dataInCount - 1, port.driven := none } := by
  simp only [payloadByte, hi]
  rw [if_neg (by omega)]

/-- The last payload byte. -/
theorem payloadByte_last (hi : findDescriptor s (·.state == .filling) = some i)
    (hn : s.port.dataInCount = 1) :
    payloadByte b s = { askArbiter (queueAtTail i (placePayloadByte i b s)) with
      port := HostPort.busyWith s.port.command (statusReply .ok) } := by
  simp only [payloadByte, hi]
  rw [if_pos (by omega)]

end Payload

/-! ### WITHDRAW (R93, R105) -/

section Withdraw

variable {tag : Byte} {s : State} {i : Fin 16}

/-- The lowest-numbered descriptor in use with the tag is found. -/
theorem findDescriptor_tagged (hi : s.tm.table[i].state ≠ .free) (ht : s.tm.table[i].tag = tag)
    (low : ∀ j : Fin 16, j < i → s.tm.table[j].state ≠ .free → s.tm.table[j].tag ≠ tag) :
    findDescriptor s (fun d => d.state != .free && d.tag == tag) = some i :=
  findDescriptor_lowest (carries_iff.2 ⟨hi, ht⟩) fun j hj => not_carries_iff.2 (low j hj)

/-- WITHDRAW of a tag that no descriptor in use carries. -/
theorem cmdWithdraw_unknown
    (h : ∀ j : Fin 16, s.tm.table[j].state ≠ .free → s.tm.table[j].tag ≠ tag) :
    cmdWithdraw tag s = (s, statusReply .unknownTag) := by
  simp [cmdWithdraw, findDescriptor_unused h]

variable (found : findDescriptor s (fun d => d.state != .free && d.tag == tag) = some i)

include found

/-- WITHDRAW of a frame that is SELECTED or IN_FLIGHT. -/
theorem cmdWithdraw_inFlight
    (h : s.tm.table[i].state = .selected ∨ s.tm.table[i].state = .inFlight) :
    cmdWithdraw tag s = (s, statusReply .inFlight) := by
  simp only [cmdWithdraw, found]
  rcases h with h | h <;> rw [h]

/-- WITHDRAW of a descriptor that is FILLING or DONE. -/
theorem cmdWithdraw_badState
    (h : s.tm.table[i].state = .filling ∨ s.tm.table[i].state = .done) :
    cmdWithdraw tag s = (s, statusReply .badState) := by
  simp only [cmdWithdraw, found]
  rcases h with h | h <;> rw [h]

/-- WITHDRAW of a QUEUED descriptor, with no frame waiting for room: it leaves its queue and becomes FREE, and its blocks join the pool. -/
theorem cmdWithdraw_frees (h : s.tm.table[i].state = .queued) (hw : NoRoomAwaited s) :
    cmdWithdraw tag s =
      ({ s with
        tm.table := s.tm.table.set i Descriptor.empty
        tm.urgent := s.tm.urgent.filter (· != i)
        tm.normal := s.tm.normal.filter (· != i)
        mem.pool := s.mem.pool ++ s.tm.table[i].blocks }, statusReply .ok) := by
  simp only [cmdWithdraw, found]
  rw [h]
  simp only [freeDescriptor]
  rw [freeBlocks_unawaited (by exact hw)]
  rfl

end Withdraw

/-! ### REAP, FETCH and OUTCOME (R86, R107, R138, R180–R182) -/

/-- REAP of an empty completion list. -/
theorem cmdReap_empty {s : State} (h : s.tm.completion = []) :
    cmdReap s = (s, statusReply .empty) := by
  simp [cmdReap, h]

/-- REAP copies the head of the completion list (R180). -/
theorem cmdReap_copies {i : Fin 16} {rest : List (Fin 16)} {o : TxOutcome} {time : ClockTime}
    {s : State} (h : s.tm.completion = i :: rest) (ho : s.tm.table[i].outcome = some o)
    (ht : s.tm.table[i].completedAt = some time) :
    cmdReap s = (s, .result
      [0x00, s.tm.table[i].tag, classCode s.tm.table[i].cls, txOutcomeCode o,
        BitVec.ofNat 8 s.tm.table[i].attempts, time.extractLsb' 24 8, time.extractLsb' 16 8,
        time.extractLsb' 8 8, time.extractLsb' 0 8]) := by
  simp only [cmdReap, h, reapBytes]
  rw [ho, ht]
  rfl

/-- FETCH of an empty record queue. -/
theorem cmdFetch_empty {s : State} (h : s.rm.records = []) :
    cmdFetch s = (s, statusReply .empty) := by
  simp [cmdFetch, h]

/-- FETCH copies the head record (R181). -/
theorem cmdFetch_copies {r : Record} {rest : List Record} {s : State}
    (h : s.rm.records = r :: rest) : cmdFetch s = (s, .result (fetchBytes r)) := by
  simp [cmdFetch, h]

/-- OUTCOME of an empty outcome queue. -/
theorem cmdOutcome_empty {s : State} (h : s.rdv.outcomes = []) :
    cmdOutcome s = (s, statusReply .empty) := by
  simp [cmdOutcome, h]

/-- OUTCOME copies the oldest record, and notes that it is being read (R182). -/
theorem cmdOutcome_copies {r : OutcomeRecord} {rest : List OutcomeRecord} {s : State}
    (h : s.rdv.outcomes = r :: rest) :
    cmdOutcome s = ({ s with rdv.reading := true }, .result (outcomeBytes r)) := by
  simp [cmdOutcome, h]

end Sys2Proof.Machine

open Sys2Proof Sys2Proof.Machine

/-- Settles O6: the byte is written at its address, and after the last one the descriptor joins its queue's tail. -/
theorem payloadBytesFillTheDescriptor : Obligations.PayloadBytesFillTheDescriptor := by
  intro b s i a hrun hwf hp hi ha
  have placed := placePayloadByte_at (b := b) ha
  refine ⟨Memory.write s.mem.cells a b, Memory.read_write_self hwf,
    fun x hx => Memory.read_write_other hx _,
    fun hn => nextIs_of_change rfl hrun ((dataWrite_payload hp).trans ?_),
    fun hn => nextIs_of_change rfl hrun ((dataWrite_payload hp).trans ?_)⟩
  · rw [payloadByte_next hi hn, placed]
  · rw [payloadByte_last hi hn, placed, queueAtTail_eq]
    rfl

/-- Settles O17: the tests of SEND in their order, then the frame accepted by its length. -/
theorem sendTakesTheLowestFreeEntry : Obligations.SendTakesTheLowestFreeEntry := by
  refine ⟨fun tag cls destination flags high low c i length s hp hf hlen hmax hc hd hn ht hi hlow
    hquota hpool => ?_, fun tag cls destination flags high low s hp => ?_⟩
  · subst hlen
    have room : blocksRefused (blocksNeeded (word16 high low).toNat) s = false := by
      rw [Bool.eq_false_iff, Ne, blocksRefused_iff]
      omega
    have accepted := sendTest_lowest hf (sendParamsBad_good hc hd hn hmax) ht hi hlow room
    exact ⟨fun hl => nextIs_of_command rfl hp (cmdSend_fills hc accepted hl) (by simp) rfl,
      fun hl => nextIs_of_command rfl hp (cmdSend_queues hc accepted hl) (by simp [statusReply]) rfl⟩
  · have refused {st : Status}
        (e : sendTest tag cls destination (word16 high low).toNat s = .error st) :
        NextIs (.send tag cls destination flags high low) s
          { s with port := HostPort.busyWith (some 0x10) (statusReply st) } :=
      nextIs_of_command rfl hp (cmdSend_refused e) (by simp [statusReply]) rfl
    refine ⟨fun hf => refused (sendTest_faulted hf),
      fun hf hbad => refused (sendTest_badParam hf (sendParamsBad_bad hbad)),
      fun c hf hc hd hn hl => ?_⟩
    have good := sendParamsBad_good hc hd hn hl
    exact ⟨fun i hi ht => refused (sendTest_dupTag hf good hi ht),
      fun h => refused (sendTest_tableFull hf good h),
      fun i hi ht hb => refused (sendTest_noSpace hf good hi ht ((blocksRefused_iff _ _).2 hb))⟩

/-- Settles O18: the descriptor with the tag is found, and its state decides. -/
theorem withdrawByDescriptorState : Obligations.WithdrawByDescriptorState := by
  intro tag s hp
  have answers {t : State} {st : Status} (e : cmdWithdraw tag s = (t, statusReply st)) :
      NextIs (.withdraw tag) s
        { t with port := HostPort.busyWith (some 0x11) (statusReply st) } :=
    nextIs_of_command rfl hp e (by simp [statusReply]) rfl
  refine ⟨fun h => answers (cmdWithdraw_unknown h), fun i ht hlow => ?_⟩
  have found (hi : s.tm.table[i].state ≠ .free) := findDescriptor_tagged hi ht hlow
  refine ⟨fun h => answers (cmdWithdraw_inFlight (found ?_) h),
    fun h => answers (cmdWithdraw_badState (found ?_) h),
    fun h hw => answers (cmdWithdraw_frees (found ?_) h hw)⟩
  · rcases h with h | h <;> rw [h] <;> decide
  · rcases h with h | h <;> rw [h] <;> decide
  · rw [h]
    decide

/-- Settles O19: each reader copies the head of its list or finds it empty; the codes are read off. -/
theorem readersCopyTheHead : Obligations.ReadersCopyTheHead := by
  intro s hp
  refine ⟨fun i rest o t h ho ht => nextIs_of_command rfl hp (cmdReap_copies h ho ht) (by simp) rfl,
    fun h => nextIs_of_command rfl hp (cmdReap_empty h) (by simp [statusReply]) rfl,
    fun r rest h => nextIs_of_command rfl hp (cmdFetch_copies h) (by simp) rfl,
    fun h => nextIs_of_command rfl hp (cmdFetch_empty h) (by simp [statusReply]) rfl,
    fun r rest h => nextIs_of_command rfl hp (cmdOutcome_copies h) (by simp) rfl,
    fun h => nextIs_of_command rfl hp (cmdOutcome_empty h) (by simp [statusReply]) rfl, ?_⟩
  decide
end

section
/-! The record queue: the end of a received frame, DISCARD with a frame waiting for room, and aged flags (R9–R12, R33, R88, R95, R126, R127, R129, R133, R135, R140–R144). -/

namespace Sys2Proof.Machine

open Sys2Proof

/-! ### Aged flags (R143, R144) -/

/-- While the age limit is on, the flag of the record at that place is set. -/
theorem agedFlagSet_sets {place : Nat} {r : Record} {s : State}
    (hl : s.ctl.configuration.ageLimit ≠ 0) (hr : s.rm.records[place]? = some r) :
    agedFlagSet place s =
      { s with rm.records := s.rm.records.set place { r with aged := true } } := by
  rw [agedFlagSet, if_neg hl, setAgedAt_eq place _ _ hr]

/-- With the age limit 0 no flag is set. -/
theorem agedFlagSet_off {s : State} (hl : s.ctl.configuration.ageLimit = 0) (place : Nat) :
    agedFlagSet place s = s :=
  if_pos hl

/-! ### DISCARD (R140), and the room it makes for a STRICT frame (R95, R126, R129) -/

/-- DISCARD on an empty record queue. -/
theorem cmdDiscard_empty {s : State} (h : s.rm.records = []) :
    cmdDiscard s = (s, statusReply .empty) := by
  simp [cmdDiscard, h]

/-- DISCARD removes the head record. -/
theorem cmdDiscard_removes {r : Record} {rest : List Record} {s : State}
    (h : s.rm.records = r :: rest) : cmdDiscard s = (removeHeadRecord s, statusReply .ok) := by
  simp [cmdDiscard, h]

/-- Outside BLOCK_WAIT no request for a block is open. -/
theorem renewRequest_without {s : State} (h : s.rm.state ≠ .blockWait) : renewRequest s = s := by
  simp only [renewRequest]
  split
  · rename_i hb _
    exact absurd hb h
  · rfl

/-- A freeing in SLOT_WAIT moves blocks and nothing else: the participant waits for a slot, not for a block (R126). -/
theorem freeBlocks_slotWait {s : State} (h : s.rm.state = .slotWait) (blocks : List Nat) :
    freeBlocks blocks s = { s with mem.pool := s.mem.pool ++ blocks } := by
  cases blocks with
  | nil => simp [freeBlocks]
  | cons b more =>
    have unasked : renewRequest (returnToPool (b :: more) s) = returnToPool (b :: more) s :=
      renewRequest_without (by simp [h])
    have awaits : receptionWaits (returnToPool (b :: more) s) = true := by
      simp [receptionWaits, h]
    rw [freeBlocks, unasked, becomeReady_awaits awaits, returnToPool]

/-- In SLOT_WAIT the slot of the removed record is reserved, and the participant may be ready (R126). -/
theorem removeHeadRecord_slotWait {r : Record} {rest : List Record} {s : State}
    (h : s.rm.records = r :: rest) (hw : s.rm.state = .slotWait) :
    removeHeadRecord s =
      becomeReady (reserveSlot
        { s with rm.records := rest, mem.pool := s.mem.pool ++ r.blocks }) := by
  simp only [removeHeadRecord, h]
  rw [freeBlocks_slotWait (by exact hw), if_pos hw]

/-- A renewed request for one copy without room is granted the block at the head of the pool, and the copy is the first byte of it (R87, R95, R129). -/
theorem renewRequest_granted {b : Nat} {v : Byte} {more : List Nat} {c : Construction} {s : State}
    (hw : s.rm.state = .blockWait) (hh : s.rm.held = some { value := v, count := 1 })
    (hc : s.rm.construction = some c) (hfull : c.keptLength = 64 * c.blocks.length)
    (hpool : s.mem.pool = b :: more) :
    renewRequest s = { s with
      rm.state := .storing
      rm.held := none
      rm.construction := some { c with
        blocks := c.blocks ++ [b], keptLength := c.keptLength + 1 }
      mem.cells := Memory.write s.mem.cells (64 * b) v
      mem.pool := more } := by
  simp only [renewRequest, hw, hh]
  rw [storeCopies_block hc hfull hpool, storeCopies_zero]
  simp only [putCopy]
  rw [hfull, writePayload_at (payloadAddress_next c.blocks b)]

/-- With the pool empty, the first block freed is granted to the copy that waits in BLOCK_WAIT, and the participant may be ready (R95, R129). -/
theorem freeBlocks_granted {b : Nat} {v : Byte} {c : Construction} {s : State}
    (hw : s.rm.state = .blockWait) (hh : s.rm.held = some { value := v, count := 1 })
    (hc : s.rm.construction = some c) (hfull : c.keptLength = 64 * c.blocks.length)
    (hpool : s.mem.pool = []) (more : List Nat) :
    freeBlocks (b :: more) s = becomeReady { s with
      rm.state := .storing
      rm.held := none
      rm.construction := some { c with
        blocks := c.blocks ++ [b], keptLength := c.keptLength + 1 }
      mem.cells := Memory.write s.mem.cells (64 * b) v
      mem.pool := more } := by
  have pooled : (returnToPool (b :: more) s).mem.pool = b :: more := by
    simp [hpool]
  rw [freeBlocks, renewRequest_granted (by exact hw) (by exact hh) (by exact hc) hfull pooled]
  rfl

/-- In BLOCK_WAIT with one copy to store, the first block of the removed record is taken for it, and the participant is ready (R95, R129). -/
theorem removeHeadRecord_blockWait {b : Nat} {v : Byte} {more : List Nat} {l : Latch}
    {c : Construction} {r : Record} {rest : List Record} {s : State}
    (h : s.rm.records = r :: rest) (hblocks : r.blocks = b :: more)
    (hw : s.rm.state = .blockWait) (hh : s.rm.held = some { value := v, count := 1 })
    (hc : s.rm.construction = some c) (hfull : c.keptLength = 64 * c.blocks.length)
    (hpool : s.mem.pool = []) (hr : s.hs.role = .participant .preparing)
    (hl : s.hs.latch = some l) (hlast : l.byte.last = false) (ho : s.line.sense.offer = false) :
    removeHeadRecord s = { s with
      line.drive.wait := false
      hs.role := .participant .ready
      rm.records := rest
      rm.state := .storing
      rm.held := none
      rm.construction := some { c with
        blocks := c.blocks ++ [b], keptLength := c.keptLength + 1 }
      mem.cells := Memory.write s.mem.cells (64 * b) v
      mem.pool := more } := by
  simp only [removeHeadRecord, h, hblocks]
  rw [freeBlocks_granted (by exact hw) (by exact hh) (by exact hc) hfull (by exact hpool),
    becomeReady_of_latch (by exact hr) (by exact hl) hlast (by exact ho) rfl]
  exact if_neg (show ReceptionState.storing ≠ .slotWait by decide)

/-! ### The end of a DATA frame at the receive manager (R127, R133, R135) -/

/-- A receive manager at rest in IDLE is as a return to IDLE leaves it. -/
theorem receptionIdle_atRest {s : State} (hs : s.rm.state = .idle) (hp : s.rm.policy = none)
    (hc : s.rm.construction = none) (hh : s.rm.held = none) : receptionIdle s = s := by
  rw [receptionIdle, ← hs, ← hp, ← hc, ← hh]

/-- The end of every DATA frame leaves the receive manager in IDLE (R122). -/
theorem receptionCompletion_state (f : FrameState) (s : State) :
    (receptionCompletion f s).rm.state = .idle := by
  simp only [receptionCompletion]
  split
  case h_5 hi =>
    repeat' split
    all_goals simpa [joinRecord, countDropped] using hi
  all_goals rfl

section Ends

variable {full : Nat} {c : Construction} {f : FrameState} {s : State}

/-- A frame stored whole joins the queue as a COMPLETE record. -/
theorem receptionCompletion_storing (hs : s.rm.state = .storing) (hc : s.rm.construction = some c)
    (hf : f.expandedLength = some full) :
    receptionCompletion f s =
      receptionIdle (joinRecord c.source c.address .complete full c.keptLength c.blocks s) := by
  simp [receptionCompletion, hs, hc, hf]

/-- A truncated frame joins the queue with what was kept, and is counted. -/
theorem receptionCompletion_truncated (hs : s.rm.state = .truncated)
    (hc : s.rm.construction = some c) (hf : f.expandedLength = some full) :
    receptionCompletion f s = receptionIdle (countTruncated
      (joinRecord c.source c.address .truncated full c.keptLength c.blocks s)) := by
  simp [receptionCompletion, hs, hc, hf]

/-- A malformed frame joins the queue without its payload, whose blocks are freed, and is counted. -/
theorem receptionCompletion_malformed (hs : s.rm.state = .malformed)
    (hc : s.rm.construction = some c) (hf : f.expandedLength = some full) :
    receptionCompletion f s = returnToPool c.blocks (receptionIdle (countMalformed
      (joinRecord c.source c.address .malformed full 0 [] s))) := by
  simp [receptionCompletion, hs, hc, hf]

/-- A frame in DROPPING is counted dropped. -/
theorem receptionCompletion_dropping (hs : s.rm.state = .dropping) :
    receptionCompletion f s = receptionIdle (countDropped s) := by
  simp [receptionCompletion, hs]

/-- A frame that ended in its header, with a slot free, joins the queue as an empty COMPLETE record. -/
theorem receptionCompletion_header {src adr : Byte} (hs : s.rm.state = .idle)
    (hc : s.rm.construction = none) (hp : f.position = .type) (hsrc : f.source = some src)
    (hadr : f.address = some adr) (hn : s.rm.records.length < 32) :
    receptionCompletion f s = joinRecord src adr .complete 0 0 [] s := by
  simp [receptionCompletion, hs, hp, slotFree, hc, hn, hsrc, hadr]

/-- A frame that ended in its header, with no slot free, is counted dropped. -/
theorem receptionCompletion_header_full (hs : s.rm.state = .idle) (hp : f.position = .type)
    (hn : 32 ≤ s.rm.records.length) : receptionCompletion f s = countDropped s := by
  have full : slotFree s = false := by
    simp only [slotFree, Config.recordSlots, decide_eq_false_iff_not]
    omega
  simp [receptionCompletion, hs, hp, full]

/-- Of any other frame for which no slot was asked nothing is kept (log 42). -/
theorem receptionCompletion_unasked (hs : s.rm.state = .idle) (hp : f.position ≠ .type) :
    receptionCompletion f s = s := by
  simp [receptionCompletion, hs, hp]

end Ends

/-! ### The completion at a listener (R9–R12, R33) -/

/-- Between frames readiness is the receive manager's alone (R33). -/
theorem isReady_betweenFrames {s : State} (hp : s.fe.frame.position = .none) :
    isReady s = !receptionWaits s := by
  simp [isReady, hp]

/-- A byte taken between frames belongs to none, and nothing is handed on (R33). -/
theorem takeByte_betweenFrames {s : State} (hp : s.fe.frame.position = .none) (b : BusByte) :
    takeByte b s = { s with
      line.drive.wait := true
      line.drive.pend := false
      hs.role := .participant .taken
      hs.latch := some { byte := b, position := .none } } := by
  simp [takeByte, isDuplicateSource, parseNext, parseByte, handTaken, hp]

/-- A participant that is ready with a byte on offer takes it (R9, R10). -/
theorem becomeReady_takes {b : BusByte} {s : State} (hr : s.hs.role = .participant .preparing)
    (h : isReady s = true) (ho : s.line.sense.offer = true) (hb : s.line.observed = some b) :
    becomeReady s = takeByte b s := by
  simp [becomeReady, hr, h, ho, hb]

/-- The completion of an addressed DATA frame is the receive manager's. -/
theorem handCompletion_data {s : State} (ht : s.fe.frame.type = some typeData)
    (ha : s.fe.frame.addressed = some true) :
    handCompletion s = receptionCompletion s.fe.frame s := by
  simp only [handCompletion, ht, ha, and_self, if_true]
  exact rendezvousCompletion_other (by rw [ht]; decide) (by rw [ht]; decide) _

/-- The completion of a HELLO, or of a DATA frame not addressed to the station, tells no block. -/
theorem handCompletion_eq_self {s : State} (ho : s.fe.frame.type ≠ some typeOpen)
    (hc : s.fe.frame.type ≠ some typeCancel)
    (h : s.fe.frame.type ≠ some typeData ∨ s.fe.frame.addressed ≠ some true) :
    handCompletion s = s := by
  have unaddressed : ¬ (s.fe.frame.type = some typeData ∧ s.fe.frame.addressed = some true) := by
    rintro ⟨ht, ha⟩
    exact h.elim (absurd ht) (absurd ha)
  simp only [handCompletion, unaddressed, if_false]
  exact rendezvousCompletion_other ho hc s

/-- COMPLETION_WINDOW_END at a participant: the completion is handed on, and the participant may be ready. -/
theorem completionWindowEnd_participant {p : ParticipantPhase} {s : State}
    (hw : s.hs.window ≠ none) (hr : s.hs.role = .participant p) :
    completionWindowEnd s = becomeReady (endFrameState (handCompletion s)) := by
  simp [completionWindowEnd, completeElsewhere, Option.isNone_iff_eq_none, hw, hr]

/-- COMPLETION_WINDOW_END at a bystander: the completion is handed on, and the bystander rests. -/
theorem completionWindowEnd_bystander {s : State} (hw : s.hs.window ≠ none)
    (hr : s.hs.role = .bystander) :
    completionWindowEnd s = restAsParticipant (endFrameState (handCompletion s)) := by
  simp [completionWindowEnd, completeElsewhere, Option.isNone_iff_eq_none, hw, hr]

/-- The next state at the completion of an addressed DATA frame at a participant, from what the receive manager makes of it. -/
theorem nextIs_receptionCompletes {s u : State} (hb : OnBus s) (hw : s.hs.window ≠ none)
    (hr : s.hs.role = .participant .preparing) (ho : s.line.sense.offer = false)
    (ht : s.fe.frame.type = some typeData) (ha : s.fe.frame.addressed = some true)
    (h : receptionCompletion s.fe.frame s = u) :
    NextIs .completionWindowEnd s { u with
      line.drive.wait := false
      hs.window := none
      hs.role := .participant .ready
      fe.frame := FrameState.absent } := by
  obtain ⟨hhs, hline, hidle⟩ : u.hs = s.hs ∧ u.line = s.line ∧ u.rm.state = .idle := by
    rw [← h]
    exact ⟨by simp, by simp, receptionCompletion_state _ _⟩
  have ready : isReady (endFrameState u) = true := by
    rw [isReady_betweenFrames rfl]
    simp [receptionWaits, hidle]
  refine nextIs_of_busChange rfl hb ?_
  rw [completionWindowEnd_participant hw hr, handCompletion_data ht ha, h,
    becomeReady_readies (by simpa [hhs] using hr) ready (by simpa [hline] using ho)]
  rfl

end Sys2Proof.Machine

open Sys2Proof Sys2Proof.Machine

/-- Settles O47: the flag by the age limit. -/
theorem agedFlagIsSet : Obligations.AgedFlagIsSet := by
  intro place r s hrun
  exact ⟨fun hl hr => nextIs_of_change rfl hrun (agedFlagSet_sets hl hr),
    fun hl => nextIs_of_change rfl hrun (agedFlagSet_off hl place)⟩

/-- Settles O20: the removal by what the reception waits for; that the freed block is granted in the action of the freeing is the model's choice (log 40). -/
theorem discardRemovesTheHeadRecord : Obligations.DiscardRemovesTheHeadRecord := by
  have answers {s t : State} {st : Status} (hp : PortFree s)
      (e : cmdDiscard s = (t, statusReply st)) :
      NextIs .discard s { t with port := HostPort.busyWith (some 0x21) (statusReply st) } :=
    nextIs_of_command rfl hp e (by simp [statusReply]) rfl
  refine ⟨fun s hp => ⟨fun r rest h hn => ?_, fun h => answers hp (cmdDiscard_empty h)⟩,
    fun r rest l s hp h _ hr ho hl hlast => ⟨fun hw _ => ?_,
      fun c v b more hw hc hh hfull hpool hblocks => ?_⟩⟩
  · have removes := cmdDiscard_removes h
    rw [removeHeadRecord_unawaited hn h] at removes
    exact answers hp removes
  · have removes := cmdDiscard_removes h
    rw [removeHeadRecord_slotWait h hw,
      becomeReady_of_latch (by exact hr) (by exact hl) hlast (by exact ho) rfl] at removes
    exact answers hp removes
  · have removes := cmdDiscard_removes h
    rw [removeHeadRecord_blockWait h hblocks hw hh hc hfull hpool hr hl hlast ho] at removes
    exact answers hp removes

/-- Settles O46: what the receive manager makes of the frame by its state, at a participant that is then ready; a frame that tells no block ends by the role. -/
theorem recordJoinsAtCompletion : Obligations.RecordJoinsAtCompletion := by
  refine ⟨fun src adr full s hb hw hr ho _ ht ha hf hsrc hadr => ?_,
    fun s hb hw hopen hcancel h => ?_⟩
  · intro ended joined
    have completes {u : State} := nextIs_receptionCompletes (u := u) hb hw hr ho ht ha
    refine ⟨fun c hs hc => completes (receptionCompletion_storing hs hc hf),
      fun c hs hc => completes (receptionCompletion_truncated hs hc hf),
      fun c hs hc => completes (receptionCompletion_malformed hs hc hf),
      fun hs => completes (receptionCompletion_dropping hs), fun hs hc hpol hheld => ?_⟩
    have atRest {t : State} (hk : t.rm.state = s.rm.state ∧ t.rm.policy = s.rm.policy ∧
        t.rm.construction = s.rm.construction ∧ t.rm.held = s.rm.held) : t = receptionIdle t := by
      obtain ⟨hs', hpol', hc', hheld'⟩ := hk
      exact (receptionIdle_atRest (hs'.trans hs) (hpol'.trans hpol) (hc'.trans hc)
        (hheld'.trans hheld)).symm
    exact ⟨fun hp hn => completes ((receptionCompletion_header hs hc hp hsrc hadr hn).trans
        (atRest ⟨rfl, rfl, rfl, rfl⟩)),
      fun hp hn => completes ((receptionCompletion_header_full hs hp hn).trans
        (atRest ⟨rfl, rfl, rfl, rfl⟩)),
      fun hp => completes ((receptionCompletion_unasked hs hp).trans
        (atRest ⟨rfl, rfl, rfl, rfl⟩))⟩
  · intro finished
    have untold := handCompletion_eq_self hopen hcancel h
    refine ⟨fun hr => nextIs_of_busChange rfl hb ?_, fun hr hi => ?_⟩
    · rw [completionWindowEnd_bystander hw hr, untold]
      rfl
    · have ends := completionWindowEnd_participant hw hr
      rw [untold] at ends
      have ready : isReady (endFrameState s) = true := by
        rw [isReady_betweenFrames rfl]
        simp [receptionWaits, hi]
      refine ⟨fun ho => nextIs_of_busChange rfl hb ?_, fun b ho hobs => nextIs_of_busChange rfl hb ?_⟩
      · rw [ends, becomeReady_readies (by exact hr) ready (by exact ho)]
        rfl
      · rw [ends, becomeReady_takes (by exact hr) ready (by exact ho) (by exact hobs),
          takeByte_betweenFrames rfl]
        rfl
end

section
/-! The counts of attempts (R99, R101, R109, R113), and the ranges of the configuration record (R157). -/

namespace Sys2Proof.Machine

open Sys2Proof

/-! ### What the counts of attempts are held by -/

/-- The attempts of a descriptor are 0–8, and at most 7 where another attempt can still come. -/
def DescriptorInRange (d : Descriptor) : Prop :=
  d.attempts ≤ 8 ∧ (d.state ≠ .inFlight → d.state ≠ .done → d.attempts ≤ 7)

/-- The attempts of a slot's frame are 0–8, and at most 7 where another attempt can still come. -/
def SlotInRange (slot : Option SlotFrame) : Prop :=
  ∀ f, slot = some f → f.attempts ≤ 8 ∧ (f.state ≠ .inFlight → f.attempts ≤ 7)

/-- Every count of attempts is in its range, with what keeps it there: a queued descriptor can be attempted again (R100), and a retry limit above 7 would let an eighth attempt be followed by another (R113). -/
structure AttemptsKept (s : State) : Prop where
  orders : OrdersAgree s
  descriptors : ∀ i : Fin 16, DescriptorInRange s.tm.table[i]
  slot : SlotInRange s.tm.slot
  retries : s.ctl.configuration.retryLimit ≤ 7

/-- The counts are in range with a legal configuration. -/
theorem AttemptsKept.of_range {s : State} (hc : ConfigurationLegal s) (ho : OrdersAgree s)
    (h : AttemptsInRange s) : AttemptsKept s := by
  obtain ⟨-, -, -, -, hretry, -⟩ := hc
  exact ⟨ho, h.1, h.2, hretry⟩

/-- The invariant that the statement names. -/
theorem AttemptsKept.inRange {s : State} (h : AttemptsKept s) : AttemptsInRange s :=
  ⟨h.descriptors, h.slot⟩

/-- An attempt that can be followed by another one. -/
theorem DescriptorInRange.of_le {d : Descriptor} (h : d.attempts ≤ 7) : DescriptorInRange d :=
  ⟨by omega, fun _ _ => h⟩

/-- A descriptor that waits for an attempt was attempted seven times at most. -/
theorem DescriptorInRange.waiting {d : Descriptor} (h : DescriptorInRange d)
    (hs : d.state ≠ .inFlight ∧ d.state ≠ .done) : d.attempts ≤ 7 := h.2 hs.1 hs.2

/-- A frame that waits in the slot with seven attempts at most. -/
theorem SlotInRange.of_le {f : SlotFrame} (h : f.attempts ≤ 7) : SlotInRange (some f) := by
  rintro _ ⟨⟩
  exact ⟨by omega, fun _ => h⟩

/-- An EMPTY slot. -/
theorem SlotInRange.empty : SlotInRange none := fun _ h => nomatch h

/-- A removal request moves no count (R119). -/
theorem SlotInRange.removed {f : SlotFrame} (h : SlotInRange (some f)) :
    SlotInRange (some { f with removal := true }) := by
  rintro _ ⟨⟩
  exact h f rfl

/-- A purge moves no count (R77). -/
theorem SlotInRange.purged {tag : Byte} {slot : Option SlotFrame} (h : SlotInRange slot) :
    SlotInRange (purgedSlot tag slot) := by
  cases slot with
  | none => exact .empty
  | some f =>
    simp only [purgedSlot]
    split
    · split_ifs
      · exact h
      · exact .empty
      · exact h.removed
    all_goals exact h

section Kept

variable {s : State}

/-- An operation on the slot alone. -/
theorem AttemptsKept.of_slot {t : State} (h : AttemptsKept s) (hs : SlotInRange t.tm.slot)
    (e : t.tm.table = s.tm.table ∧ t.tm.urgent = s.tm.urgent ∧ t.tm.normal = s.tm.normal ∧
      t.tm.completion = s.tm.completion ∧ t.ctl.configuration = s.ctl.configuration) :
    AttemptsKept t := by
  obtain ⟨ht, hu, hn, hd, hc⟩ := e
  refine ⟨?_, by simpa only [ht] using h.descriptors, hs, by simpa only [hc] using h.retries⟩
  simpa only [OrdersAgree, ht, hu, hn, hd] using h.orders

/-- An operation that moves no frame. -/
theorem AttemptsKept.of_same {t : State} (h : AttemptsKept s)
    (e : t.tm.table = s.tm.table ∧ t.tm.urgent = s.tm.urgent ∧ t.tm.normal = s.tm.normal ∧
      t.tm.completion = s.tm.completion ∧ t.tm.slot = s.tm.slot ∧
      t.ctl.configuration = s.ctl.configuration) :
    AttemptsKept t := by
  obtain ⟨ht, hu, hn, hd, hs, hc⟩ := e
  exact h.of_slot (hs ▸ h.slot) ⟨ht, hu, hn, hd, hc⟩

/-- An operation that replaces one descriptor, its orders kept. -/
theorem AttemptsKept.of_entry {t : State} {i : Fin 16} {d : Descriptor} (h : AttemptsKept s)
    (ho : OrdersAgree t) (hd : DescriptorInRange d)
    (e : t.tm.table = s.tm.table.set i d ∧ t.tm.slot = s.tm.slot ∧
      t.ctl.configuration = s.ctl.configuration) : AttemptsKept t := by
  obtain ⟨ht, hs, hc⟩ := e
  refine ⟨ho, fun j => ?_, hs ▸ h.slot, hc ▸ h.retries⟩
  have entry : t.tm.table[j] = if j = i then d else s.tm.table[j] := by
    simp [ht, Vector.getElem_set, Fin.ext_iff, eq_comm]
  rw [entry]
  split
  · exact hd
  · exact h.descriptors j

/-- An attempt that the retry limit lets be tried again was the seventh at most (R113, R115). -/
theorem AttemptsKept.mayRetry (h : AttemptsKept s) {n : Nat} (hn : mayRetry n s = true) :
    n ≤ 7 := by
  have := h.retries
  simp only [Machine.mayRetry, decide_eq_true_eq] at hn
  omega

/-! ### The frame table and the slot (R99, R100, R101, R109) -/

/-- A descriptor queued at the tail. -/
theorem queueAtTail_attempts {i : Fin 16} (h : AttemptsKept s)
    (hq : s.tm.table[i].state = .filling) : AttemptsKept (queueAtTail i s) := by
  have waits := (h.descriptors i).waiting (by rw [hq]; decide)
  exact h.of_entry (d := { s.tm.table[i] with state := .queued })
    (queueAtTail_kept (.refl h.orders) (by rw [hq]; decide)).orders (.of_le waits)
    (by rw [queueAtTail_eq]; exact ⟨rfl, rfl, rfl⟩)

/-- A descriptor queued at the head, to be tried again. -/
theorem queueAtHead_attempts {i : Fin 16} (h : AttemptsKept s)
    (hq : s.tm.table[i].state ≠ .queued ∧ s.tm.table[i].state ≠ .done)
    (hn : s.tm.table[i].attempts ≤ 7) : AttemptsKept (queueAtHead i s) :=
  h.of_entry (d := { s.tm.table[i] with state := .queued })
    (queueAtHead_kept (.refl h.orders) hq).orders (.of_le hn)
    (by rw [queueAtHead_eq]; exact ⟨rfl, rfl, rfl⟩)

/-- The slot's frame is eligible only in QUEUED. -/
theorem eligibleFrame_slot_queued (h : eligibleFrame s = some .slot) :
    ∃ f, s.tm.slot = some f ∧ f.state = .queued := by
  by_contra none_queued
  have unqueued : eligibleSlot s = none :=
    eligibleSlot_none fun f hs hq => none_queued ⟨f, hs, hq⟩
  simp only [eligibleFrame, unqueued, eligibleNormal] at h
  split at h
  · split at h <;> simp at h
  · simp at h
  all_goals cases h

/-- A frame that is selected can still be attempted (R23). -/
theorem selectFrame_attempts {f : FrameRef} (h : AttemptsKept s) (hf : eligibleFrame s = some f) :
    AttemptsKept (selectFrame f s) := by
  have orders := (selectFrame_kept (.refl h.orders) hf).orders
  cases f with
  | slot =>
    obtain ⟨g, hs, hq⟩ := eligibleFrame_slot_queued hf
    rw [selectFrame_slot hs]
    exact h.of_slot (.of_le ((h.slot g hs).2 (by simp [hq]))) (by simp [slotSelected])
  | descriptor i =>
    rw [selectFrame_descriptor] at orders ⊢
    obtain ⟨-, -, -, agree⟩ := h.orders
    have queued : s.tm.table[i].state = .queued :=
      (eligibleFrame_mem hf).elim (fun m => ((agree i).1.1 m).1) fun m => ((agree i).2.1.1 m).1
    exact h.of_entry (d := { s.tm.table[i] with state := .selected }) orders
      (.of_le ((h.descriptors i).waiting (by rw [queued]; decide))) ⟨rfl, rfl, rfl⟩

/-- The slot's frame that is SELECTED. -/
theorem selectedFrame_slot_state {f : SlotFrame} (h : selectedFrame s = some .slot)
    (hs : s.tm.slot = some f) : f.state = .selected := by
  by_contra hf
  simp [selectedFrame, hs, hf] at h

/-- A frame that goes back was not in flight (R27–R29). -/
theorem returnSelected_attempts (h : AttemptsKept s) : AttemptsKept (returnSelected s) := by
  simp only [returnSelected]
  split
  · rename_i i hi
    have selected := selectedFrame_state hi
    exact queueAtHead_attempts h (by rw [selected]; decide)
      ((h.descriptors i).waiting (by rw [selected]; decide))
  · rename_i hsel
    split
    · rename_i f hs
      have waits : f.attempts ≤ 7 :=
        (h.slot f hs).2 (by simp [selectedFrame_slot_state hsel hs])
      refine h.of_slot ?_ (by simp)
      simp only [setSlot_sets]
      split
      · exact .empty
      · exact .of_le waits
    · exact h
  · exact h

/-- The attempt that begins is the eighth at most (R109). -/
theorem beginAttempt_attempts (h : AttemptsKept s) : AttemptsKept (beginAttempt s) := by
  have orders := (beginAttempt_kept (.refl h.orders)).orders
  simp only [beginAttempt] at orders ⊢
  split
  · rename_i i hi
    have waits := (h.descriptors i).waiting (by rw [selectedFrame_state hi]; decide)
    simp only [hi] at orders
    exact h.of_entry orders ⟨Nat.succ_le_succ waits, fun hf => absurd rfl hf⟩ ⟨rfl, rfl, rfl⟩
  · rename_i hsel
    split
    · rename_i f hs
      have waits : f.attempts ≤ 7 :=
        (h.slot f hs).2 (by simp [selectedFrame_slot_state hsel hs])
      refine h.of_slot ?_ (by simp)
      rintro _ ⟨⟩
      exact ⟨Nat.succ_le_succ waits, fun hf => absurd rfl hf⟩
    · exact h.of_same (by simp)
  · exact h.of_same (by simp)

/-- A removal from the slot (R119). -/
theorem removeSlotFrame_attempts (h : AttemptsKept s) : AttemptsKept (removeSlotFrame s) := by
  simp only [removeSlotFrame]
  split
  · exact h
  · rename_i f hs
    have range : SlotInRange (some f) := hs ▸ h.slot
    split
    · exact h.of_slot .empty (by simp)
    · exact h.of_slot range.removed (by simp)
    · exact h.of_slot range.removed (by simp)

/-- The slot is emptied. -/
theorem setSlot_none_attempts (h : AttemptsKept s) : AttemptsKept (setSlot none s) :=
  h.of_slot .empty (by simp)

/-! ### The arbiter (R20–R31) -/

/-- The arbiter selects an eligible frame. -/
theorem askArbiter_attempts (h : AttemptsKept s) : AttemptsKept (askArbiter s) := by
  simp only [askArbiter]
  split
  · split
    · rename_i f hf
      exact (selectFrame_attempts h hf).of_same (by simp [openWindow])
    · exact h
  · exact h

/-- The entry into STANDBY asks. -/
theorem enterStandby_attempts (h : AttemptsKept s) : AttemptsKept (enterStandby s) :=
  askArbiter_attempts (h.of_same (by simp))

/-- A bid given up returns its frame. -/
theorem giveUpBid_attempts (h : AttemptsKept s) : AttemptsKept (giveUpBid s) :=
  (returnSelected_attempts (s := { s with line.drive.req := false, line.drive.data := 0 })
    (h.of_same (by simp))).of_same (by simp [giveUpBid])

/-- A frame is placed with no attempt made (R101). -/
theorem placeSlotFrame_attempts {kind : SlotKind} (h : AttemptsKept s) :
    AttemptsKept (placeSlotFrame kind s) :=
  askArbiter_attempts (h.of_slot (.of_le (Nat.zero_le 7)) (by simp))

/-- An automatic CANCEL is placed or merged. -/
theorem placeCancel_attempts {group tag : Byte} (h : AttemptsKept s) :
    AttemptsKept (placeCancel group tag s) := by
  simp only [placeCancel]
  split
  · exact placeSlotFrame_attempts h
  · exact h

/-- REQ_SENSED. -/
theorem reqSensed_attempts (h : AttemptsKept s) : AttemptsKept (reqSensed s) := by
  simp only [reqSensed]
  split
  · split
    · rename_i f hf
      refine (selectFrame_attempts (h.of_same ?_) hf).of_same (by simp [openWindow])
      simp
    · exact h.of_same (by simp)
  · exact h.of_same (by simp)

/-- ARBITRATION_DECISION. -/
theorem arbitrationDecision_attempts {d : Byte} (h : AttemptsKept s) :
    AttemptsKept (arbitrationDecision d s) := by
  simp only [arbitrationDecision]
  split
  · split
    · exact h.of_same (by simp)
    · exact giveUpBid_attempts (h.of_same (by simp))
  · exact h

/-- WON_HOLD_END begins the attempt. -/
theorem wonHoldEnd_attempts (h : AttemptsKept s) : AttemptsKept (wonHoldEnd s) := by
  simp only [wonHoldEnd]
  split
  · exact (beginAttempt_attempts h).of_same (by simp)
  · exact h

/-- ROUND_GAP_EXPIRY. -/
theorem roundGapExpiry_attempts (h : AttemptsKept s) : AttemptsKept (roundGapExpiry s) := by
  simp only [roundGapExpiry]
  split
  · exact askArbiter_attempts (h.of_same (by simp))
  · exact h

/-! ### The view and the slot (R55–R84, R119) -/

/-- A purge acts on the slot alone. -/
theorem purgeCancel_attempts {tag : Byte} (h : AttemptsKept s) :
    AttemptsKept (purgeCancel tag s) := by
  rw [purgeCancel_eq]
  exact h.of_slot h.slot.purged (by simp)

/-- A view that closes may purge the slot. -/
theorem closeView_attempts {o : RdvOutcome} {closedAt : ClockTime} (h : AttemptsKept s) :
    AttemptsKept (closeView o closedAt s) :=
  h.of_slot (by simpa using h.slot.purged) (by simp)

/-- The end of a well-formed OPEN may discard an own OPEN. -/
theorem openCompletion_attempts (h : AttemptsKept s) : AttemptsKept (openCompletion s) := by
  have discards {t : State} (ht : AttemptsKept t) : AttemptsKept (discardLostOpen t) := by
    simp only [discardLostOpen]
    split
    · split
      · exact (setSlot_none_attempts ht).of_same (by simp)
      · exact ht
    · exact ht
  refine discards ?_
  split
  · exact h.of_same (by simp)
  · split
    · split <;> exact h.of_same (by simp)
    · exact h.of_same (by simp)

/-- A freeze that is lifted may place the automatic CANCEL. -/
theorem liftFreeze_attempts (h : AttemptsKept s) : AttemptsKept (liftFreeze s) := by
  have places {t : State} (ht : AttemptsKept t) : AttemptsKept (placeDeferredCancel t) := by
    simp only [placeDeferredCancel]
    split
    · exact placeCancel_attempts (ht.of_same (by simp))
    · exact ht
  simp only [liftFreeze]
  split
  · exact places (h.of_same (by simp))
  · exact h

/-- The end of a well-formed CANCEL. -/
theorem cancelCompletion_attempts {address tag : Byte} (h : AttemptsKept s) :
    AttemptsKept (cancelCompletion address tag s) := by
  simp only [cancelCompletion]
  split
  · exact closeView_attempts h
  · split
    · exact h.of_same (by simp)
    · exact h
  · exact liftFreeze_attempts h
  · exact liftFreeze_attempts h
  · exact h
  · exact h

/-- The end of a completed frame at the rendezvous unit. -/
theorem rendezvousCompletion_attempts {f : FrameState} (h : AttemptsKept s) :
    AttemptsKept (rendezvousCompletion f s) := by
  simp only [rendezvousCompletion]
  split
  · split
    · exact openCompletion_attempts h
    · exact h.of_same (by simp)
  · split
    · split
      · exact cancelCompletion_attempts h
      · exact liftFreeze_attempts h
    · exact h

/-- The end of an abandoned frame at the rendezvous unit. -/
theorem rendezvousAbandonment_attempts {f : FrameState} (h : AttemptsKept s) :
    AttemptsKept (rendezvousAbandonment f s) := by
  simp only [rendezvousAbandonment]
  split
  · exact h.of_same (by simp)
  · split
    · exact liftFreeze_attempts h
    · exact h

/-- A CANCEL that nobody hears closes the view (R74). -/
theorem closeNoListener_attempts {tag : Byte} (h : AttemptsKept s) :
    AttemptsKept (closeNoListener tag s) := by
  simp only [closeNoListener]
  split
  · exact closeView_attempts (h.of_same (by simp))
  · exact h

/-- FIRE_DELAY_END. -/
theorem fireDelayEnd_attempts (h : AttemptsKept s) : AttemptsKept (fireDelayEnd s) := by
  simp only [fireDelayEnd]
  split
  · exact closeView_attempts (h.of_same (by simp))
  · exact h
  · exact h

/-- DEADLINE_EXPIRY. -/
theorem deadlineExpiry_attempts (h : AttemptsKept s) : AttemptsKept (deadlineExpiry s) := by
  simp only [deadlineExpiry]
  split
  · exact h
  · split
    case h_1 | h_2 =>
      split
      · exact placeCancel_attempts (h.of_same (by simp))
      · exact h.of_same (by simp)
    all_goals exact h.of_same (by simp)

/-- CLEAR_BREAK_CLASSIFICATION may purge a CANCEL. -/
theorem clearBreakClassification_attempts (h : AttemptsKept s) :
    AttemptsKept (clearBreakClassification s) := by
  simp only [clearBreakClassification, closingSet]
  split
  · split
    case h_1 | h_2 => exact purgeCancel_attempts (h.of_same (by simp))
    all_goals exact h.of_same (by simp)
  all_goals exact h

/-- The release of BRK closes a view or fires it. -/
theorem breakReleasedAtView_attempts (h : AttemptsKept s) :
    AttemptsKept (breakReleasedAtView s) := by
  simp only [breakReleasedAtView]
  split
  · exact closeView_attempts h
  · split
    · exact closeView_attempts (h.of_same (by simp))
    all_goals exact h

/-! ### The end of a frame at a listener (R11, R12, R54) -/

/-- The abandonment of a frame may place the automatic CANCEL. -/
theorem handAbandonment_attempts (h : AttemptsKept s) : AttemptsKept (handAbandonment s) := by
  refine rendezvousAbandonment_attempts ?_
  split
  · exact h
  · exact h.of_same (by simp)

/-- The frame in progress is abandoned. -/
theorem abandonFrame_attempts (h : AttemptsKept s) : AttemptsKept (abandonFrame s) := by
  simp only [abandonFrame]
  split
  · exact h.of_same (by simp)
  · exact (handAbandonment_attempts h).of_same (by simp)

/-- The withdrawal of a LAST byte may abandon a frame (R11, log 42). -/
theorem lastWithdrawn_attempts (h : AttemptsKept s) : AttemptsKept (lastWithdrawn s) := by
  have guarded : AttemptsKept { s with line.guard := some 0 } := h.of_same (by simp)
  simp only [lastWithdrawn]
  split
  · exact guarded
  · split
    · exact guarded
    · exact abandonFrame_attempts guarded
    all_goals exact guarded.of_same (by simp)

/-- OFFER_RELEASE_SENSED. -/
theorem offerReleaseSensed_attempts (h : AttemptsKept s) : AttemptsKept (offerReleaseSensed s) := by
  have withdrawn {t : State} (ht : AttemptsKept t) :
      AttemptsKept (if observedLast t then lastWithdrawn t else t) := by
    split
    · exact lastWithdrawn_attempts ht
    · exact ht
  have sensed : AttemptsKept (restartSilence { s with line.sense.offer := false }) :=
    h.of_same (by simp)
  simp only [offerReleaseSensed]
  split
  · exact sensed
  · exact (withdrawn sensed).of_same (by simp)
  · exact withdrawn sensed

/-- OWN_ASSERTION_SENSED. -/
theorem ownAssertionSensed_attempts (h : AttemptsKept s) : AttemptsKept (ownAssertionSensed s) := by
  simp only [ownAssertionSensed]
  split
  · exact h.of_same (by simp)
  · cases s.arb.phase with
    | bidding =>
      exact (giveUpBid_attempts (s := ownHeard s) (h.of_same (by simp [ownHeard]))).of_same
        (by simp [ownHeard])
    | off | standby | won | owner | outside => exact h.of_same (by simp)

/-- OWN_RELEASE_SENSED. -/
theorem ownReleaseSensed_attempts {req : Bool} (h : AttemptsKept s) :
    AttemptsKept (ownReleaseSensed req s) := by
  have released {t : State} (ht : AttemptsKept t) : AttemptsKept (ownReleased t) := by
    simp only [ownReleased]
    split
    · split
      · exact (abandonFrame_attempts ht).of_same (by simp)
      · exact (abandonFrame_attempts ht).of_same (by simp)
      · exact abandonFrame_attempts ht
    · exact ht
  have sensed : AttemptsKept { s with line.sense.own := false, line.sense.req := req } :=
    h.of_same (by simp)
  simp only [ownReleaseSensed]
  split
  · exact released sensed
  · exact (released sensed).of_same (by simp)

/-- BUS_IDLE_SENSED. -/
theorem busIdleSensed_attempts (h : AttemptsKept s) : AttemptsKept (busIdleSensed s) := by
  have released : AttemptsKept (ownReleaseSensed false s) := ownReleaseSensed_attempts h
  simp only [busIdleSensed]
  split
  · exact h
  · split
    · exact enterStandby_attempts released
    · exact enterStandby_attempts (giveUpBid_attempts released)
    · exact enterStandby_attempts (giveUpBid_attempts released)
    all_goals exact released

/-- A frame that completes at a listener. -/
theorem completeElsewhere_attempts (h : AttemptsKept s) : AttemptsKept (completeElsewhere s) := by
  have handed : AttemptsKept (handCompletion s) := by
    refine rendezvousCompletion_attempts ?_
    split
    · exact h.of_same (by simp)
    · exact h
  simp only [completeElsewhere]
  split <;> exact handed.of_same (by simp)

/-! ### The end of an attempt (R109–R119) -/

/-- A finished descriptor keeps its count (R112). -/
theorem finishDescriptor_attempts {i : Fin 16} {o : TxOutcome} (h : AttemptsKept s)
    (hi : s.tm.table[i].state = .inFlight) : AttemptsKept (finishDescriptor i o s) :=
  h.of_entry (i := i)
    (d := { s.tm.table[i] with
      state := .done, outcome := some o, completedAt := some s.ctl.clock, blocks := [] })
    (finishDescriptor_kept (.refl h.orders) hi).orders
    ⟨(h.descriptors i).1, fun _ hd => absurd rfl hd⟩ (by simp [finishDescriptor])

/-- A descriptor in flight returns within the retry limit or is finished. -/
theorem endDescriptorAttempt_attempts {i : Fin 16} {o : TxOutcome} (h : AttemptsKept s)
    (hi : s.tm.table[i].state = .inFlight) : AttemptsKept (endDescriptorAttempt i o s) := by
  simp only [endDescriptorAttempt]
  split
  case h_4 | h_5 =>
    split
    · rename_i retry
      exact queueAtHead_attempts h (by rw [hi]; decide) (h.mayRetry retry)
    · exact finishDescriptor_attempts h hi
  all_goals exact finishDescriptor_attempts h hi

/-- A slot frame that is tried again. -/
theorem retriedSlot_attempts {f : SlotFrame} (h : AttemptsKept s)
    (hf : mayRetry f.attempts s = true) :
    AttemptsKept (setSlot (some { f with state := .queued }) s) :=
  h.of_slot (.of_le (h.mayRetry hf)) (by simp)

/-- The end of a HELLO's attempt. -/
theorem endHello_attempts {f : SlotFrame} {o : TxOutcome} {atSource : Bool} (h : AttemptsKept s) :
    AttemptsKept (endHello f o atSource s) := by
  have emptied := setSlot_none_attempts h
  cases o with
  | sent | noListener => exact emptied.of_same (by simp [endHello])
  | clash => exact emptied
  | stalled | broken =>
    simp only [endHello]
    split
    · exact emptied.of_same (by simp)
    · split
      · rename_i retry
        exact retriedSlot_attempts h retry
      · exact emptied.of_same (by simp)

/-- The end of an OPEN's attempt. -/
theorem endOpen_attempts {f : SlotFrame} {group tag : Byte} {o : TxOutcome} (h : AttemptsKept s) :
    AttemptsKept (endOpen f group tag o s) := by
  have emptied := setSlot_none_attempts h
  cases o with
  | sent => exact emptied
  | noListener | clash => exact emptied.of_same (by simp [endOpen])
  | stalled | broken =>
    simp only [endOpen]
    split
    · rename_i retry
      exact retriedSlot_attempts h retry
    · exact emptied.of_same (by simp)

/-- The end of a CANCEL's attempt. -/
theorem endCancel_attempts {f : SlotFrame} {tag : Byte} {o : TxOutcome} (h : AttemptsKept s) :
    AttemptsKept (endCancel f tag o s) := by
  have emptied := setSlot_none_attempts h
  cases o with
  | sent | clash => exact emptied
  | noListener => exact closeNoListener_attempts emptied
  | stalled | broken =>
    simp only [endCancel]
    split
    · rename_i retry
      exact retriedSlot_attempts h retry
    · exact emptied.of_same (by simp)

/-- The end of the slot frame's attempt. -/
theorem endSlotAttempt_attempts {f : SlotFrame} {o : TxOutcome} {atSource : Bool}
    (h : AttemptsKept s) : AttemptsKept (endSlotAttempt f o atSource s) := by
  simp only [endSlotAttempt]
  split
  · exact setSlot_none_attempts h
  · split
    · exact endHello_attempts h
    · exact endOpen_attempts h
    · exact endCancel_attempts h

/-- The end of an attempt. -/
theorem endAttempt_attempts {o : TxOutcome} {atSource : Bool} (h : AttemptsKept s) :
    AttemptsKept (endAttempt o atSource s) := by
  have forgotten : AttemptsKept { s with tm.handed := none } := h.of_same (by simp)
  simp only [endAttempt]
  split
  · rename_i i hi
    exact endDescriptorAttempt_attempts forgotten (inFlightFrame_state hi)
  · split
    · exact endSlotAttempt_attempts forgotten
    · exact forgotten
  · exact forgotten

/-- NO_LISTENER. -/
theorem noListener_attempts (h : AttemptsKept s) : AttemptsKept (noListener s) := by
  have sensed : AttemptsKept { s with line.sense.wait := false, line.sense.pend := false } :=
    h.of_same (by simp)
  have released : AttemptsKept (releaseByte
      { s with line.sense.wait := false, line.sense.pend := false }) := h.of_same (by simp)
  have rests {t : State} (ht : AttemptsKept t) : AttemptsKept (leaveTalker t) :=
    ht.of_same (by simp)
  simp only [noListener]
  split
  · split
    · exact sensed
    · exact rests (endAttempt_attempts ((handAbandonment_attempts released).of_same (by simp)))
  · exact sensed

/-- The completion at the talker. -/
theorem completeAtTalker_attempts (h : AttemptsKept s) : AttemptsKept (completeAtTalker s) :=
  (rendezvousCompletion_attempts (f := s.fe.frame)
    (endAttempt_attempts (o := s.tm.handed.getD .sent) (atSource := false) h)).of_same
    (by simp [completeAtTalker])

/-- COMPLETION_WINDOW_END. -/
theorem completionWindowEnd_attempts (h : AttemptsKept s) :
    AttemptsKept (completionWindowEnd s) := by
  simp only [completionWindowEnd]
  split
  · exact h
  · split
    · split
      · exact h
      · exact completeAtTalker_attempts h
    · exact h
    · exact completeElsewhere_attempts h

/-! ### Breaks (R16–R19) and the ways off the bus (R82, R145, R164) -/

/-- BREAK_EDGE at a talker. -/
theorem breakTalker_attempts (h : AttemptsKept s) : AttemptsKept (breakTalker s) := by
  have stopped : AttemptsKept (talkerStopped (guardAtBreak s) s) :=
    h.of_same (by simp [talkerStopped])
  have rests {t : State} (ht : AttemptsKept t) : AttemptsKept (enterOutside t) :=
    ht.of_same (by simp)
  rw [breakTalker_eq]
  refine rests ?_
  split
  · exact stopped
  · exact endAttempt_attempts ((handAbandonment_attempts stopped).of_same (by simp))

/-- BREAK_EDGE. -/
theorem breakEdge_attempts (h : AttemptsKept s) : AttemptsKept (breakEdge s) := by
  have bids {t : State} (ht : AttemptsKept t) : AttemptsKept (breakArbiter t) := by
    simp only [breakArbiter]
    split
    · exact giveUpBid_attempts ht
    · exact giveUpBid_attempts ht
    · exact ht.of_same (by simp)
    all_goals exact ht
  simp only [breakEdge, breakRole]
  split
  · exact h
  · have bid := bids (t := holdFire { s with
      line.sense.brk := true, line.measure := .timing 0, line.heldFrame := [] })
      (h.of_same (by simp))
    split
    · exact breakTalker_attempts bid
    · exact (abandonFrame_attempts bid).of_same (by simp [breakParticipant])
    · exact (abandonFrame_attempts bid).of_same (by simp [breakParticipant])
    · exact bid

/-- The entry into OFFLINE or FAULTED empties the slot and leaves the counts of the descriptors. -/
theorem leaveBus_attempts {target : StationState} {reason : StationReason} (h : AttemptsKept s) :
    AttemptsKept (leaveBus target reason s) := by
  have discarded {t : State} (ht : AttemptsKept t) :
      AttemptsKept (if t.rm.state = .idle then t else receptionAbandonment t) := by
    split
    · exact ht
    · exact ht.of_same (by simp)
  have closed {t : State} (ht : AttemptsKept t) : AttemptsKept (viewLeavesBus t) := by
    simp only [viewLeavesBus]
    split
    case h_1 | h_2 | h_3 => exact closeView_attempts (ht.of_same (by simp))
    all_goals exact ht.of_same (by simp)
  have emptied {t : State} (ht : AttemptsKept t) : AttemptsKept (emptySlotAtEntry t) := by
    simp only [emptySlotAtEntry]
    split
    · split
      · exact (setSlot_none_attempts ht).of_same (by simp)
      all_goals exact setSlot_none_attempts ht
    · exact ht
  exact (emptied (closed (discarded (returnSelected_attempts h)))).of_same (by simp [leaveBus])

/-- A cleared table and an EMPTY slot hold no count. -/
theorem AttemptsKept.of_cleared {t : State} (ht : t.tm = TransmitManager.cleared)
    (ho : OrdersAgree t) (hc : t.ctl.configuration.retryLimit ≤ 7) : AttemptsKept t := by
  refine ⟨ho, fun i => .of_le ?_, ?_, hc⟩
  · simp [ht, TransmitManager.cleared, Descriptor.empty]
  · rw [ht]
    exact .empty

/-- The clearing of a soft reset (R164). -/
theorem softResetClearing_attempts (h : AttemptsKept s) : AttemptsKept (softResetClearing s) := by
  refine .of_cleared ?_ (softResetClearing_kept (.refl h.orders)).orders (by simpa using h.retries)
  simp only [softResetClearing]
  split <;> rfl

/-- Power-on values (R162). -/
theorem powerOn_attempts {straps : StationNumber} {p : PowerState} {n : Nat} {q : List Instr} :
    AttemptsKept (State.powerOn straps p n q) :=
  .of_cleared rfl (powerOn_kept (s₀ := State.reset)).orders (by decide : (3 : Nat) ≤ 7)

/-- BRK_RELEASE. -/
theorem brkRelease_attempts {own req : Bool} (h : AttemptsKept s) :
    AttemptsKept (brkRelease own req s) := by
  have goesOn {t : State} (ht : AttemptsKept t) : AttemptsKept (releaseOrdinary t) := by
    have viewed : AttemptsKept (breakReleasedAtView t) := breakReleasedAtView_attempts ht
    have rested : AttemptsKept (rejoinAtRelease (breakReleasedAtView t)) :=
      viewed.of_same (by simp)
    simp only [releaseOrdinary]
    split
    · exact leaveBus_attempts viewed
    · simp only [arbiterAtRelease]
      split
      · exact enterStandby_attempts rested
      · exact rested
  have classified : AttemptsKept (classifyAtRelease { s with
      line.sense.brk := false, line.sense.own := own, line.sense.req := req }) :=
    h.of_same (by simp)
  simp only [brkRelease]
  split
  · split
    · exact softResetClearing_attempts classified
    · exact goesOn classified
  · exact h

/-- LEFT. -/
theorem left_attempts (h : AttemptsKept s) : AttemptsKept (left s) := by
  simp only [left]
  split
  · exact leaveBus_attempts h
  · exact h

/-- JOIN_ABANDONED. -/
theorem joinAbandoned_attempts (h : AttemptsKept s) : AttemptsKept (joinAbandoned s) := by
  simp only [joinAbandoned]
  split
  · exact leaveBus_attempts h
  · exact h

/-- The action that begins participation (R150). -/
theorem beginParticipation_attempts (h : AttemptsKept s) : AttemptsKept (beginParticipation s) := by
  have leaves {t : State} (ht : AttemptsKept t) : AttemptsKept (arbiterLeavesOff t) := by
    simp only [arbiterLeavesOff]
    split
    · exact ht.of_same (by simp)
    · exact enterStandby_attempts ht
  exact placeSlotFrame_attempts (AttemptsKept.of_same (leaves (t := resumeSilence (restAsParticipant
    { s with ctl.joinPhase := some .participating })) (h.of_same (by simp))) (by simp))

/-- PARTICIPATION_BEGIN. -/
theorem participationBegin_attempts {req trg : Bool} (h : AttemptsKept s) :
    AttemptsKept (participationBegin req trg s) := by
  simp only [participationBegin]
  split
  · exact beginParticipation_attempts (h.of_same (by simp))
  · exact h

/-! ### The host's commands (R102–R163) -/

/-- A descriptor that becomes FREE has no count. -/
theorem AttemptsKept.of_freed {t : State} {i : Fin 16} (h : AttemptsKept s) (ho : OrdersAgree t)
    (e : t.tm.table = s.tm.table.set i Descriptor.empty ∧ t.tm.slot = s.tm.slot ∧
      t.ctl.configuration = s.ctl.configuration) : AttemptsKept t :=
  h.of_entry ho (.of_le (by decide)) e

/-- SEND begins with no attempt made. -/
theorem cmdSend_attempts {tag cls destination flags lengthHigh lengthLow : Byte}
    (h : AttemptsKept s) :
    AttemptsKept (cmdSend tag cls destination flags lengthHigh lengthLow s).1 := by
  simp only [cmdSend]
  split
  · exact h
  · rename_i i accepted
    have taken : AttemptsKept (acceptSend i tag cls destination flags
        (word16 lengthHigh lengthLow).toNat s) := by
      refine h.of_entry (acceptSend_kept (.refl h.orders) (sendTest_free accepted)).orders
        (.of_le ?_) ⟨rfl, rfl, rfl⟩
      exact Nat.zero_le 7
    split
    · exact askArbiter_attempts (queueAtTail_attempts taken (by simp [acceptSend]))
    · exact taken

/-- WITHDRAW. -/
theorem cmdWithdraw_attempts {tag : Byte} (h : AttemptsKept s) :
    AttemptsKept (cmdWithdraw tag s).1 := by
  have orders := (cmdWithdraw_kept (tag := tag) (.refl h.orders)).orders
  simp only [cmdWithdraw] at orders ⊢
  split
  · exact h
  · rename_i i found
    simp only [found] at orders
    split
    · rename_i queued
      simp only [queued] at orders
      exact h.of_freed (i := i) orders (by simp [freeDescriptor])
    all_goals exact h

/-- SEND's data phase abandoned. -/
theorem abandonSend_attempts (h : AttemptsKept s) : AttemptsKept (abandonSend s) := by
  have orders := (abandonSend_kept (.refl h.orders)).orders
  simp only [abandonSend] at orders ⊢
  split
  · rename_i i found
    simp only [found] at orders
    exact h.of_freed (i := i) orders (by simp [freeDescriptor])
  · exact h

/-- The end of a REAP. -/
theorem reapRead_attempts (h : AttemptsKept s) : AttemptsKept (reapRead s) := by
  have orders := (reapRead_kept (.refl h.orders)).orders
  simp only [reapRead] at orders ⊢
  split
  · exact h
  · rename_i i rest hc
    simp only [hc] at orders
    exact h.of_freed (i := i) orders (by simp)

/-- LEAVE. -/
theorem cmdLeave_attempts (h : AttemptsKept s) : AttemptsKept (cmdLeave s).1 := by
  have asked : AttemptsKept { s with ctl.leaveRequested := true } := h.of_same (by simp)
  simp only [cmdLeave]
  split
  · split
    · exact h
    · exact left_attempts (h.of_same (by simp))
  · simp only [abandonJoin]
    split
    · exact h
    · split
      · exact joinAbandoned_attempts (removeSlotFrame_attempts asked)
      · exact leaveBus_attempts asked
  all_goals exact h

/-- JOIN. -/
theorem cmdJoin_attempts (h : AttemptsKept s) : AttemptsKept (cmdJoin s).1 := by
  simp only [cmdJoin]
  split
  · simp only
    split
    · exact beginParticipation_attempts (h.of_same (by simp))
    · exact h.of_same (by simp)
  · exact h

/-- The record that CONFIGURE makes of its parameters is in its ranges (R157, R179). -/
theorem configurationOf_legal {stall silence retry reserve notify age unicast broadcast : Byte}
    {c : Configuration}
    (h : configurationOf stall silence retry reserve notify age unicast broadcast = some c) :
    ConfigurationLegal { s with ctl.configuration := c } := by
  simp only [configurationOf] at h
  split at h
  · split at h
    · rename_i ranges
      obtain rfl := Option.some.inj h
      simp only [ConfigurationLegal, Config.stallUnit, Config.silenceUnit]
      have := stall.isLt
      have := silence.isLt
      have := age.isLt
      omega
    · cases h
  · cases h

/-- CONFIGURE leaves a legal configuration, and otherwise moves records' flags only. -/
theorem cmdConfigure_legal {stall silence retry reserve notify age unicast broadcast : Byte}
    (h : ConfigurationLegal s) :
    ConfigurationLegal
      (cmdConfigure stall silence retry reserve notify age unicast broadcast s).1 := by
  simp only [cmdConfigure]
  split
  · exact h
  · split
    · rename_i c hc
      split
      · exact configurationOf_legal hc
      · exact h
    · exact h

/-- CONFIGURE. -/
theorem cmdConfigure_attempts {stall silence retry reserve notify age unicast broadcast : Byte}
    (h : AttemptsKept s) :
    AttemptsKept (cmdConfigure stall silence retry reserve notify age unicast broadcast s).1 := by
  simp only [cmdConfigure]
  split
  · exact h
  · split
    · rename_i c hc
      split
      · obtain ⟨-, -, -, -, retries, -⟩ := configurationOf_legal (s := s) hc
        exact ⟨h.orders, h.descriptors, h.slot, retries⟩
      · exact h
    · exact h

/-- Every command of the host at its owner. -/
theorem ownerAction_attempts {c : HostCommand} {p : List Byte} (h : AttemptsKept s) :
    AttemptsKept (ownerAction c p s).1 := by
  simp only [ownerAction]
  cases c with
  | configure => exact cmdConfigure_attempts h
  | join => exact cmdJoin_attempts h
  | leave => exact cmdLeave_attempts h
  | send => exact cmdSend_attempts h
  | withdraw => exact cmdWithdraw_attempts h
  | openRdv =>
    simp only [cmdOpen]
    split_ifs
    case neg => exact placeSlotFrame_attempts h
    all_goals exact h
  | cancel =>
    simp only [cmdCancel]
    split_ifs
    case neg => exact placeCancel_attempts h
    all_goals exact h
  | softReset =>
    simp only [cmdSoftReset]
    split
    case h_4 | h_5 => exact softResetClearing_attempts h
    all_goals exact h.of_same (by simp)
  | setGroup =>
    refine h.of_same ?_
    simp only [cmdSetGroup]
    (repeat' split) <;> simp
  | arm | reap | fetch | discard | outcome | causes | acknowledge | setMask | snapshot =>
    exact h.of_same (by simp)

/-- A command handed over (R168, R169). -/
theorem deliver_attempts {code : Byte} {p : List Byte} (h : AttemptsKept s) :
    AttemptsKept (deliver code p s) := by
  have answered : AttemptsKept (answerTo code p s).1 := by
    simp only [answerTo]
    split
    · exact ownerAction_attempts h
    · exact h
  simp only [deliver]
  split
  · exact answered
  · exact answered.of_same (by simp)

/-- The last payload byte of SEND queues a frame that was never attempted (R103, R171). -/
theorem payloadByte_attempts {b : Byte} (h : AttemptsKept s) : AttemptsKept (payloadByte b s) := by
  simp only [payloadByte]
  split
  · rename_i i found
    have filling : s.tm.table[i].state = .filling := by simpa using findDescriptor_meets found
    have placed : AttemptsKept (placePayloadByte i b s) := h.of_same (by simp [placePayloadByte])
    split
    · exact (askArbiter_attempts (queueAtTail_attempts placed filling)).of_same (by simp)
    · exact placed.of_same (by simp)
  · exact h

/-- A DATA write, in every phase of the port. -/
theorem dataWrite_attempts {b : Byte} (h : AttemptsKept s) : AttemptsKept (dataWrite b s) := by
  simp only [dataWrite]
  split
  · simp only [commandByte]
    split
    · exact h.of_same (by simp)
    all_goals exact deliver_attempts h
  · simp only [parameterByte]
    split
    · exact deliver_attempts h
    · exact h.of_same (by simp)
  · exact payloadByte_attempts h
  all_goals exact h.of_same (by simp)

/-- A DATA read, in every phase of the port. -/
theorem dataRead_attempts (h : AttemptsKept s) : AttemptsKept (dataRead s) := by
  simp only [dataRead]
  split
  · simp only [resultByte, resultRead]
    split
    · split
      · exact h.of_same (by simp)
      · split
        · exact (reapRead_attempts h).of_same (by simp)
        all_goals exact h.of_same (by simp)
    · exact h.of_same (by simp)
  all_goals exact h.of_same (by simp)

/-- ABANDON. -/
theorem abandon_attempts (h : AttemptsKept s) : AttemptsKept (abandon s) := by
  simp only [abandon]
  split
  case h_3 => exact (abandonSend_attempts h).of_same (by simp)
  case h_4 => split <;> exact h.of_same (by simp)
  all_goals exact h.of_same (by simp)

/-- BUSY_END. -/
theorem busyEnd_attempts (h : AttemptsKept s) : AttemptsKept (busyEnd s) := by
  simp only [busyEnd]
  split
  · split
    · exact (abandonSend_attempts h).of_same (by simp)
    · exact h.of_same (by simp)
  · split <;> exact h.of_same (by simp)
  · exact h

/-- A whole command, in every phase of the port. -/
theorem giveCommand_attempts {code : Byte} {p : List Byte} (h : AttemptsKept s) :
    AttemptsKept (giveCommand code p s) := by
  have written (bytes : List Byte) : ∀ t : State, AttemptsKept t →
      AttemptsKept (bytes.foldl (fun t b => dataWrite b t) t) := by
    induction bytes with
    | nil => exact fun _ ht => ht
    | cons b rest ih => exact fun _ ht => ih _ (dataWrite_attempts ht)
  simp only [giveCommand]
  split
  · exact deliver_attempts h
  · exact written _ _ h

end Kept

/-! ### One action, one period, one step -/

/-- A property that the settling of the causes keeps is kept by an action whose change keeps it (R162, R187). -/
theorem act_preserves {P : State → Prop} {change : State → State} {s t : State}
    (settles : ∀ u, P u → P (settleCauses u)) (h : P s) (hc : P s → P (change s))
    (e : act change s = .next t) : P t := by
  simp only [act] at e
  split at e
  · obtain rfl := Host.Outcome.next.inj e
    exact settles _ (hc h)
  · obtain rfl := Host.Outcome.next.inj e
    exact h

/-- An action keeps the counts if its change does. -/
theorem act_keepsAttempts {change : State → State} {s t : State} (h : AttemptsKept s)
    (hc : AttemptsKept s → AttemptsKept (change s)) (e : act change s = .next t) :
    AttemptsKept t :=
  act_preserves (fun _ hu => hu.of_same (by simp)) h hc e

/-- An action on the bus keeps them if its change does. -/
theorem actOnBus_keepsAttempts {change : State → State} {s t : State} (h : AttemptsKept s)
    (hc : AttemptsKept s → AttemptsKept (change s)) (e : actOnBus change s = .next t) :
    AttemptsKept t := by
  refine act_keepsAttempts h (fun h => ?_) e
  split
  · exact hc h
  · exact h

/-- An action on an edge keeps them if its change does. -/
theorem actOnLine_keepsAttempts {note : PinLevels → PinLevels} {change : State → State}
    {s t : State} (h : AttemptsKept s) (hc : AttemptsKept s → AttemptsKept (change s))
    (e : actOnLine note change s = .next t) : AttemptsKept t := by
  refine act_keepsAttempts h (fun h => ?_) e
  split
  · exact hc h
  · exact h.of_same (by simp)

/-- Every command keeps the counts of attempts in range. -/
theorem exec_keepsAttempts {c : Instr} {s t : State} (h : AttemptsKept s)
    (e : exec c s = .next t) : AttemptsKept t := by
  cases c with
  | commandByteWrite b | parameterByteWrite b | payloadByteWrite b =>
    exact act_keepsAttempts h dataWrite_attempts e
  | resultByteRead | payloadByteRead => exact act_keepsAttempts h dataRead_attempts e
  | busyEnd => exact act_keepsAttempts h busyEnd_attempts e
  | abandon b => exact act_keepsAttempts h abandon_attempts e
  | protocolError a =>
    cases a with
    | write b => exact act_keepsAttempts h dataWrite_attempts e
    | read => exact act_keepsAttempts h dataRead_attempts e
  | configure | setGroup | join | leave | send | withdraw | reap | fetch | discard | openRendezvous
  | arm | cancel | outcome | causes | acknowledge | setMask | snapshot | softReset =>
    exact act_keepsAttempts h giveCommand_attempts e
  | armPinEdge | firePulseEnd | agedFlagSet =>
    exact act_keepsAttempts h (fun h => h.of_same (by simp)) e
  | deadlineExpiry => exact act_keepsAttempts h deadlineExpiry_attempts e
  | left => exact act_keepsAttempts h left_attempts e
  | joinAbandoned => exact act_keepsAttempts h joinAbandoned_attempts e
  | resetAssert =>
    simp only [exec, execResetAssert] at e
    split at e
    · obtain rfl := Host.Outcome.next.inj e
      exact h
    · obtain rfl := Host.Outcome.next.inj e
      exact powerOn_attempts
  | resetRelease straps =>
    simp only [exec, execResetRelease] at e
    split at e
    · obtain rfl := Host.Outcome.next.inj e
      exact h
    · obtain rfl := Host.Outcome.next.inj e
      exact powerOn_attempts
  | lossOfPower =>
    obtain rfl := Host.Outcome.next.inj e
    exact powerOn_attempts
  | ownAssertionSensed =>
    simp only [exec, execOwnAssertionSensed] at e
    exact actOnLine_keepsAttempts h ownAssertionSensed_attempts e
  | ownReleaseSensed req =>
    simp only [exec, execOwnReleaseSensed] at e
    exact actOnLine_keepsAttempts h ownReleaseSensed_attempts e
  | busIdleSensed =>
    simp only [exec, execBusIdleSensed] at e
    exact actOnLine_keepsAttempts h busIdleSensed_attempts e
  | reqSensed =>
    simp only [exec, execReqSensed] at e
    exact actOnLine_keepsAttempts h reqSensed_attempts e
  | breakEdge =>
    simp only [exec, execBreakEdge] at e
    exact actOnLine_keepsAttempts h breakEdge_attempts e
  | brkRelease own req =>
    simp only [exec, execBrkRelease] at e
    exact actOnLine_keepsAttempts h brkRelease_attempts e
  | participationBegin req trg =>
    simp only [exec, execParticipationBegin] at e
    exact actOnLine_keepsAttempts h participationBegin_attempts e
  | trgReleaseSensed =>
    simp only [exec, execTrgReleaseSensed] at e
    exact actOnLine_keepsAttempts h (fun h => h.of_same (by simp)) e
  | offerReleaseSensed => exact actOnBus_keepsAttempts h offerReleaseSensed_attempts e
  | noListener => exact actOnBus_keepsAttempts h noListener_attempts e
  | completionWindowEnd => exact actOnBus_keepsAttempts h completionWindowEnd_attempts e
  | arbitrationDecision d => exact actOnBus_keepsAttempts h arbitrationDecision_attempts e
  | wonHoldEnd => exact actOnBus_keepsAttempts h wonHoldEnd_attempts e
  | roundGapExpiry => exact actOnBus_keepsAttempts h roundGapExpiry_attempts e
  | fireDelayEnd => exact actOnBus_keepsAttempts h fireDelayEnd_attempts e
  | clearBreakClassification => exact actOnBus_keepsAttempts h clearBreakClassification_attempts e
  | readbackCompare b =>
    refine actOnBus_keepsAttempts h (fun h => h.of_same ?_) e
    simp only [readbackCompare, clashFound]
    (repeat' split) <;> simp [handOutcome]
  | stallTimerExpiry =>
    refine actOnBus_keepsAttempts h (fun h => h.of_same ?_) e
    simp only [stallTimerExpiry]
    (repeat' split) <;> simp [handOutcome]
  | take | observe | talkerReadySensed | offerAssert | pendReleaseSensed | ownHoldEnd
  | silenceTimerExpiry | breakGuardEnd | breakPulseEnd | bidLineChange | clearBreakDelayEnd =>
    exact actOnBus_keepsAttempts h (fun h => h.of_same (by simp)) e

/-! ### The configuration record (R157) -/

/-- The same record is as legal. -/
theorem ConfigurationLegal.of_same {s t : State} (h : ConfigurationLegal s)
    (e : t.ctl.configuration = s.ctl.configuration) : ConfigurationLegal t := by
  simpa only [ConfigurationLegal, e] using h

/-- Every command of the host leaves a legal configuration; CONFIGURE alone writes one. -/
theorem ownerAction_legal {c : HostCommand} {p : List Byte} {s : State}
    (h : ConfigurationLegal s) : ConfigurationLegal (ownerAction c p s).1 := by
  simp only [ownerAction]
  cases c with
  | configure => exact cmdConfigure_legal h
  | setGroup =>
    refine ConfigurationLegal.of_same h ?_
    simp only [cmdSetGroup]
    (repeat' split) <;> rfl
  | join | leave | send | withdraw | reap | fetch | discard | openRdv | arm | cancel | outcome
  | causes | acknowledge | setMask | snapshot | softReset =>
    exact ConfigurationLegal.of_same h (by simp)

/-- A command handed over. -/
theorem deliver_legal {code : Byte} {p : List Byte} {s : State} (h : ConfigurationLegal s) :
    ConfigurationLegal (deliver code p s) := by
  have answered : ConfigurationLegal (answerTo code p s).1 := by
    simp only [answerTo]
    split
    · exact ownerAction_legal h
    · exact h
  simp only [deliver]
  split
  · exact answered
  · exact answered

/-- A DATA write: the last parameter byte of a CONFIGURE may bring a new record. -/
theorem dataWrite_legal {b : Byte} {s : State} (h : ConfigurationLegal s) :
    ConfigurationLegal (dataWrite b s) := by
  simp only [dataWrite]
  split
  · simp only [commandByte]
    split
    · exact h
    all_goals exact deliver_legal h
  · simp only [parameterByte]
    split
    · exact deliver_legal h
    · exact h
  all_goals exact ConfigurationLegal.of_same h (by simp)

/-- A whole command, in every phase of the port. -/
theorem giveCommand_legal {code : Byte} {p : List Byte} {s : State} (h : ConfigurationLegal s) :
    ConfigurationLegal (giveCommand code p s) := by
  have written (bytes : List Byte) : ∀ t : State, ConfigurationLegal t →
      ConfigurationLegal (bytes.foldl (fun t b => dataWrite b t) t) := by
    induction bytes with
    | nil => exact fun _ ht => ht
    | cons b rest ih => exact fun _ ht => ih _ (dataWrite_legal ht)
  simp only [giveCommand]
  split
  · exact deliver_legal h
  · exact written _ _ h

/-- The defaults are legal (R157). -/
theorem powerOn_legal {straps : StationNumber} {p : PowerState} {n : Nat} {q : List Instr} :
    ConfigurationLegal (State.powerOn straps p n q) := by
  simp only [ConfigurationLegal, State.powerOn, StationController.powerOn, Configuration.defaults]
  decide

/-- An action keeps the record legal if its change does. -/
theorem act_keepsLegal {change : State → State} {s t : State} (h : ConfigurationLegal s)
    (hc : ConfigurationLegal s → ConfigurationLegal (change s)) (e : act change s = .next t) :
    ConfigurationLegal t :=
  act_preserves (fun _ hu => ConfigurationLegal.of_same hu (by simp)) h hc e

/-- An action whose change keeps the record. -/
theorem act_sameConfiguration {change : State → State} {s t : State} (h : ConfigurationLegal s)
    (hc : (change s).ctl.configuration = s.ctl.configuration) (e : act change s = .next t) :
    ConfigurationLegal t :=
  act_keepsLegal h (fun h => .of_same h hc) e

/-- An action on the bus whose change keeps the record. -/
theorem actOnBus_sameConfiguration {change : State → State} {s t : State}
    (h : ConfigurationLegal s) (hc : (change s).ctl.configuration = s.ctl.configuration)
    (e : actOnBus change s = .next t) : ConfigurationLegal t := by
  refine act_sameConfiguration h ?_ e
  split
  · exact hc
  · rfl

/-- An action on an edge whose change keeps the record. -/
theorem actOnLine_sameConfiguration {note : PinLevels → PinLevels} {change : State → State}
    {s t : State} (h : ConfigurationLegal s)
    (hc : (change s).ctl.configuration = s.ctl.configuration)
    (e : actOnLine note change s = .next t) : ConfigurationLegal t := by
  refine act_sameConfiguration h ?_ e
  split
  · exact hc
  · rfl

/-- Every command leaves a legal configuration. -/
theorem exec_keepsLegal {c : Instr} {s t : State} (h : ConfigurationLegal s)
    (e : exec c s = .next t) : ConfigurationLegal t := by
  cases c with
  | commandByteWrite b | parameterByteWrite b | payloadByteWrite b =>
    exact act_keepsLegal h dataWrite_legal e
  | protocolError a =>
    cases a with
    | write b => exact act_keepsLegal h dataWrite_legal e
    | read => exact act_sameConfiguration h (by simp) e
  | configure | setGroup | join | leave | send | withdraw | reap | fetch | discard | openRendezvous
  | arm | cancel | outcome | causes | acknowledge | setMask | snapshot | softReset =>
    exact act_keepsLegal h giveCommand_legal e
  | resetAssert =>
    simp only [exec, execResetAssert] at e
    split at e
    · obtain rfl := Host.Outcome.next.inj e
      exact h
    · obtain rfl := Host.Outcome.next.inj e
      exact powerOn_legal
  | resetRelease straps =>
    simp only [exec, execResetRelease] at e
    split at e
    · obtain rfl := Host.Outcome.next.inj e
      exact h
    · obtain rfl := Host.Outcome.next.inj e
      exact powerOn_legal
  | lossOfPower =>
    obtain rfl := Host.Outcome.next.inj e
    exact powerOn_legal
  | resultByteRead | payloadByteRead | busyEnd | abandon | armPinEdge | deadlineExpiry
  | firePulseEnd | agedFlagSet | left | joinAbandoned =>
    exact act_sameConfiguration h (by simp) e
  | ownAssertionSensed | ownReleaseSensed | busIdleSensed | reqSensed | breakEdge | brkRelease
  | participationBegin | trgReleaseSensed =>
    simp only [exec, execOwnAssertionSensed, execOwnReleaseSensed, execBusIdleSensed,
      execReqSensed, execBreakEdge, execBrkRelease, execParticipationBegin,
      execTrgReleaseSensed] at e
    exact actOnLine_sameConfiguration h (by simp) e
  | take | observe | offerReleaseSensed | talkerReadySensed | offerAssert | pendReleaseSensed
  | noListener | completionWindowEnd | ownHoldEnd | stallTimerExpiry | silenceTimerExpiry
  | breakGuardEnd | breakPulseEnd | clearBreakClassification | readbackCompare | bidLineChange
  | arbitrationDecision | wonHoldEnd | roundGapExpiry | fireDelayEnd | clearBreakDelayEnd =>
    exact actOnBus_sameConfiguration h (by simp) e

/-- A period of the clock moves no frame and writes no configuration. -/
theorem tick_sameFrames (s : State) :
    (tick s).tm = s.tm ∧ (tick s).ctl.configuration = s.ctl.configuration := by
  simp only [tick]
  split
  · exact ⟨rfl, rfl⟩
  · exact ⟨rfl, rfl⟩

end Sys2Proof.Machine

open Sys2Proof Sys2Proof.Machine

/-- Settles O55: CONFIGURE alone writes a record, after its tests of R157. An attempt begins with a frame that waited, so after seven attempts at most, and a frame waits again only within the retry limit, which is 7 at most. -/
theorem stepKeepsConfigurationAndAttempts : Obligations.StepKeepsConfigurationAndAttempts := by
  refine ⟨fun s t hc e => ?_, fun s t hc ho hr e => ?_⟩
  · simp only [step] at e
    split at e
    · rename_i c rest _
      have taken : ConfigurationLegal { s with pending := rest } := hc
      exact exec_keepsLegal taken e
    · obtain rfl := Host.Outcome.next.inj e
      exact ConfigurationLegal.of_same hc (tick_sameFrames s).2
  · have kept : AttemptsKept s := .of_range hc ho hr
    simp only [step] at e
    split at e
    · rename_i c rest _
      have taken : AttemptsKept { s with pending := rest } := kept.of_same (by simp)
      exact (exec_keepsAttempts taken e).inRange
    · obtain rfl := Host.Outcome.next.inj e
      exact (kept.of_same (by simp [tick_sameFrames s])).inRange
end


section
/-! One period of the reference clock (R161, log 1), and what a command answers with the supply there and RESET# high, and without (R83, R162, logs 21 and 32). -/

namespace Sys2Proof.Machine

open Sys2Proof

/-! ### The events whose time has come -/

/-- The assertion of BRK is classified after 5 µs (R18). -/
theorem classificationDue_iff {m : BreakMeasure} :
    classificationDue m = true ↔ ∃ n, m = .timing n ∧ 100 ≤ n := by
  cases m <;> simp [classificationDue]

/-- The fire waits 200 ns (R65). -/
theorem fireDue_iff {f : FirePending} :
    fireDue f = true ↔ ∃ at' n, f = .pending at' n ∧ 4 ≤ n := by
  cases f <;> simp [fireDue]

/-- The station begins participation (R150). -/
theorem canParticipate_iff {s : State} :
    canParticipate s = true ↔
      s.ctl.state = .joining ∧ s.ctl.joinPhase = some .awaitClear ∧ s.line.sense.own = false ∧
        s.line.sense.brk = false ∧ s.ctl.resetInProgress = false := by
  simp [canParticipate, and_assoc]

/-- A LEAVING station enters OFFLINE (R155). -/
theorem canLeave_iff {s : State} :
    canLeave s = true ↔
      s.ctl.state = .leaving ∧ clearOfBus s = true ∧ s.ctl.resetInProgress = false := by
  simp [canLeave, and_assoc]

/-- A join-abandoning station enters OFFLINE (R154). -/
theorem canAbandonJoin_iff {s : State} :
    canAbandonJoin s = true ↔
      s.ctl.state = .joining ∧ s.ctl.joinPhase = some .participating ∧
        s.ctl.leaveRequested = true ∧ clearOfBus s = true ∧ s.tm.slot = none ∧
          s.ctl.resetInProgress = false := by
  simp [canAbandonJoin, and_assoc]

/-- A record is due for its aged flag when its age equals the limit, at the first period of a microsecond (R143). -/
def AgeDue (s : State) (place : Nat) : Prop :=
  s.ctl.configuration.ageLimit ≠ 0 ∧ s.refPhase = 0 ∧
    ∃ r, s.rm.records[place]? = some r ∧ r.aged = false ∧
      (s.ctl.clock - r.completedAt).toNat = s.ctl.configuration.ageLimit * 1000

/-- The records' events are the aged flags that are due. -/
theorem mem_agedDue {c : Instr} {s : State} :
    c ∈ agedDue s ↔ ∃ place, c = .agedFlagSet place ∧ AgeDue s place := by
  simp only [agedDue]
  split
  case isTrue off =>
    simp only [List.not_mem_nil, false_iff]
    rintro ⟨_, -, on, first, -⟩
    exact off.elim on (· first)
  case isFalse on =>
    obtain ⟨limit, first⟩ := not_or.1 on
    simp only [List.mem_filterMap, List.mem_range]
    constructor
    · rintro ⟨place, -, hp⟩
      split at hp
      · rename_i r hr
        split at hp
        · rename_i due
          refine ⟨place, (Option.some.inj hp).symm, limit, not_not.1 first, r, hr, ?_⟩
          simpa [recordAge, ageBound] using due
        · cases hp
      · cases hp
    · rintro ⟨place, rfl, -, -, r, hr, young, age⟩
      refine ⟨place, (List.getElem?_eq_some_iff.1 hr).1, ?_⟩
      simp [hr, young, recordAge, ageBound, age]

/-- The condition under which the clock brings an event; what comes from outside only it never brings (log 8). -/
def EventDue (s : State) : Instr → Prop
  | .breakGuardEnd => ∃ n, s.line.guard = some n ∧ 4 ≤ n
  | .clearBreakDelayEnd => ∃ n, s.line.trgDelay = some n ∧ 6 ≤ n
  | .breakPulseEnd .frame => ∃ n, s.line.framePulse = some n ∧ 40 ≤ n
  | .breakPulseEnd .clear => ∃ n, s.line.clearPulse = some n ∧ 200 ≤ n
  | .clearBreakClassification => ∃ n, s.line.measure = .timing n ∧ 100 ≤ n
  | .offerAssert => s.hs.setUp = some 2
  | .completionWindowEnd => ∃ n, s.hs.window = some n ∧ 2 ≤ n ∧ s.hs.complete = false
  | .ownHoldEnd => ∃ n, s.hs.window = some n ∧ 4 ≤ n ∧ s.hs.complete = true
  | .stallTimerExpiry =>
    (∃ n, s.hs.stall = some n ∧ s.ctl.configuration.stallLimit * 200 ≤ n) ∧ s.hs.setUp = none
  | .silenceTimerExpiry => s.hs.silence = some (s.ctl.configuration.silenceLimit * 2000)
  | .wonHoldEnd => s.arb.phase = .won ∧ ∃ n, s.arb.settle = some n ∧ 22 ≤ n
  | .roundGapExpiry => ∃ n, s.arb.roundGap = some n ∧ 40 ≤ n
  | .fireDelayEnd => ∃ at' n, s.rdv.view.fire = .pending at' n ∧ 4 ≤ n
  | .firePulseEnd => ∃ n, s.rdv.firePulse = some n ∧ 20 ≤ n
  | .deadlineExpiry =>
    ∃ n, s.rdv.view.timer = some n ∧ (s.rdv.view.deadline.getD 0).toNat * 20000 ≤ n
  | .busyEnd => ∃ n, s.port.busyTime = some n ∧ 80 ≤ n
  | .agedFlagSet place => AgeDue s place
  | .participationBegin req trg =>
    s.ctl.state = .joining ∧ s.ctl.joinPhase = some .awaitClear ∧ s.line.sense.own = false ∧
      s.line.sense.brk = false ∧ s.ctl.resetInProgress = false ∧ req = s.line.sense.req ∧
        trg = s.line.sense.trg
  | .left => s.ctl.state = .leaving ∧ clearOfBus s = true ∧ s.ctl.resetInProgress = false
  | .joinAbandoned =>
    s.ctl.state = .joining ∧ s.ctl.joinPhase = some .participating ∧
      s.ctl.leaveRequested = true ∧ clearOfBus s = true ∧ s.tm.slot = none ∧
        s.ctl.resetInProgress = false
  | _ => False

/-- The stall timer expires in a wait that goes on (R14, log 19). -/
theorem stallExpires_iff {s : State} :
    stallExpires s = true ↔
      (∃ n, s.hs.stall = some n ∧ s.ctl.configuration.stallLimit * 200 ≤ n) ∧
        s.hs.setUp = none := by
  simp [stallExpires, reached_iff, stallBound]

/-- Every event whose time has come, and no other, is among those of the period. -/
theorem mem_dueEvents {c : Instr} {s : State} : c ∈ dueEvents s ↔ EventDue s c := by
  simp only [dueEvents, lineDue, handshakeDue, arbiterDue, rendezvousDue, stationDue,
    List.mem_append, mem_dueIf, mem_agedDue, reached_iff, classificationDue_iff, fireDue_iff,
    stallExpires_iff, canParticipate_iff, canLeave_iff, canAbandonJoin_iff, Bool.and_eq_true, beq_iff_eq]
  cases c with
  | breakPulseEnd k => cases k <;> simp [EventDue]
  | completionWindowEnd | ownHoldEnd => simp [EventDue, ← and_assoc, exists_and_right]
  | agedFlagSet => simp [EventDue]
  | silenceTimerExpiry | participationBegin => simp [EventDue, silenceBound, and_assoc]
  | _ =>
    simp only [EventDue, reduceCtorEq, and_false, false_and, exists_false, or_false, false_or,
      and_true]

/-! ### The period (R161) -/

/-- On an empty queue of a part that runs one period passes, and the events then due are queued in a free order (logs 1 and 4). -/
theorem tick_running {s : State} (h : Running s) :
    tick s = { passTime s with
      pending := freeOrder (dueEvents (passTime s)).length s.freeIndex (dueEvents (passTime s))
      freeIndex := s.freeIndex + ((dueEvents (passTime s)).length - 1) } := by
  simp only [tick, h, if_true]
  rfl

/-- A part that is held in reset or without supply keeps no time (R83, R162). -/
theorem tick_stopped {s : State} (h : ¬ Running s) : tick s = s := by
  simp [tick, h]

/-- The events due depend on no queue and on no free value, so they are those of the state reached. -/
theorem dueEvents_tick {s : State} (h : Running s) : dueEvents (tick s) = dueEvents (passTime s) := by
  rw [tick_running h]
  rfl

/-- The queue after the period holds each event due once. -/
theorem tick_pending {s : State} (h : Running s) : (tick s).pending.Perm (dueEvents (tick s)) := by
  rw [dueEvents_tick h, tick_running h]
  exact freeOrder_perm _ _ _

/-- An event is in the queue after the period exactly when its condition holds there. -/
theorem mem_tick_pending {s : State} (h : Running s) {c : Instr} :
    c ∈ (tick s).pending ↔ EventDue (tick s) c :=
  (tick_pending h).mem_iff.trans mem_dueEvents

/-- The twentieth period completes a microsecond (R161). -/
theorem tick_clock {s : State} (h : Running s) :
    (s.refPhase + 1 < 20 →
      (tick s).refPhase = s.refPhase + 1 ∧ (tick s).ctl.clock = s.ctl.clock) ∧
    (20 ≤ s.refPhase + 1 → (tick s).refPhase = 0 ∧ (tick s).ctl.clock = s.ctl.clock + 1) := by
  rw [tick_running h]
  refine ⟨fun within => ?_, fun wraps => ?_⟩
  · simp [passTime, Config.periodsPerMicrosecond, Nat.not_le.2 within]
  · simp [passTime, Config.periodsPerMicrosecond, wraps]

end Sys2Proof.Machine

open Sys2Proof Sys2Proof.Machine

/-- Settles O2: every timer gains its period, and the queue holds the events due in the state reached. -/
theorem emptyQueuePassesOnePeriod : Obligations.EmptyQueuePassesOnePeriod := by
  intro s hq
  have passes : step s = .next (tick s) := by simp only [step, hq]
  refine ⟨fun hs => by rw [passes, tick_stopped hs], fun hrun => ⟨tick s, passes, ?_⟩⟩
  have due {c : Instr} := mem_tick_pending hrun (c := c)
  obtain ⟨within, wraps⟩ := tick_clock hrun
  have freeIndex : (tick s).freeIndex = s.freeIndex + ((dueEvents (tick s)).length - 1) := by
    rw [dueEvents_tick hrun, tick_running hrun]
  refine ⟨tick_pending hrun, within, wraps, ?line, ?hs, ?arb, ?rdv, ?port, ?ctl, ?fe, ?mem, ?tm,
    ?rm, ?cause, ?pins, ?power, freeIndex, due, due, due, due, due, due, due, due, due, due, due,
    due, due, due, due, due, fun _ => due, fun _ _ => due, due, due⟩ <;>
    rw [tick_running hrun]
  case line =>
    simp only [passTime, LineInterface.tick]
    cases s.line.measure <;> rfl
  case rdv =>
    simp only [passTime, View.tick]
    cases s.rdv.view.fire <;> rfl
  all_goals rfl
end

section
/-! What every command answers, and the values after power-on reset (R83, R97, R121, R162, R166, R184, logs 7, 21 and 32). -/

namespace Sys2Proof.Machine

open Sys2Proof

/-! ### The answer of a command (log 32) -/

/-- The outcome is a next state with the queue and the free values of this one. -/
def AnswersNext (o : Host.Outcome State Fault Refusal) (s : State) : Prop :=
  ∃ t, o = .next t ∧ t.pending = s.pending ∧ t.freeIndex = s.freeIndex

/-- An action whose change leaves the queue. -/
theorem act_answers {change : State → State} {s : State}
    (h : (change s).pending = s.pending ∧ (change s).freeIndex = s.freeIndex) :
    AnswersNext (act change s) s := by
  simp only [act]
  split
  · exact ⟨_, rfl, by simpa using h⟩
  · exact ⟨s, rfl, rfl, rfl⟩

/-- An action on the bus whose change leaves the queue. -/
theorem actOnBus_answers {change : State → State} {s : State}
    (h : (change s).pending = s.pending ∧ (change s).freeIndex = s.freeIndex) :
    AnswersNext (actOnBus change s) s := by
  refine act_answers ?_
  split
  · exact h
  · exact ⟨rfl, rfl⟩

/-- An action on an edge whose change leaves the queue. -/
theorem actOnLine_answers {note : PinLevels → PinLevels} {change : State → State} {s : State}
    (h : (change s).pending = s.pending ∧ (change s).freeIndex = s.freeIndex) :
    AnswersNext (actOnLine note change s) s := by
  refine act_answers ?_
  split
  · exact h
  · exact ⟨rfl, rfl⟩

/-- Every command answers a next state and leaves the queue. -/
theorem exec_answers (c : Instr) (s : State) : AnswersNext (exec c s) s := by
  cases c with
  | protocolError a => cases a <;> exact act_answers (by simp)
  | resetAssert =>
    simp only [exec, execResetAssert]
    split <;> exact ⟨_, rfl, rfl, rfl⟩
  | resetRelease straps =>
    simp only [exec, execResetRelease]
    split <;> exact ⟨_, rfl, rfl, rfl⟩
  | lossOfPower => exact ⟨_, rfl, rfl, rfl⟩
  | commandByteWrite | parameterByteWrite | payloadByteWrite | busyEnd | resultByteRead
  | payloadByteRead | abandon | configure | setGroup | join | leave | send | withdraw | reap
  | fetch | discard | openRendezvous | arm | cancel | outcome | causes | acknowledge | setMask
  | snapshot | softReset | armPinEdge | firePulseEnd | deadlineExpiry | agedFlagSet | left
  | joinAbandoned =>
    exact act_answers (by simp)
  | ownAssertionSensed | ownReleaseSensed | busIdleSensed | reqSensed | breakEdge | brkRelease
  | participationBegin | trgReleaseSensed =>
    simp only [exec, execOwnAssertionSensed, execOwnReleaseSensed, execBusIdleSensed,
      execReqSensed, execBreakEdge, execBrkRelease, execParticipationBegin, execTrgReleaseSensed]
    exact actOnLine_answers (by simp)
  | take | observe | offerReleaseSensed | talkerReadySensed | offerAssert | pendReleaseSensed
  | noListener | completionWindowEnd | ownHoldEnd | stallTimerExpiry | silenceTimerExpiry
  | breakGuardEnd | breakPulseEnd | clearBreakClassification | readbackCompare | bidLineChange
  | arbitrationDecision | wonHoldEnd | roundGapExpiry | fireDelayEnd | clearBreakDelayEnd =>
    exact actOnBus_answers (by simp)

/-- While RESET# is low or the supply is missing only reset and supply are taken (log 21). -/
theorem exec_stopped {c : Instr} {s : State} (h : ¬ Running s) (ha : c ≠ .resetAssert)
    (hl : c ≠ .lossOfPower) (hr : ∀ straps, c ≠ .resetRelease straps) : exec c s = .next s := by
  cases c with
  | resetAssert => exact absurd rfl ha
  | resetRelease straps => exact absurd rfl (hr straps)
  | lossOfPower => exact absurd rfl hl
  | ownAssertionSensed | ownReleaseSensed | busIdleSensed | reqSensed | breakEdge | brkRelease
  | participationBegin | trgReleaseSensed | protocolError =>
    simp only [exec, execOwnAssertionSensed, execOwnReleaseSensed, execBusIdleSensed,
      execReqSensed, execBreakEdge, execBrkRelease, execParticipationBegin, execTrgReleaseSensed,
      execProtocolError]
    exact act_stopped h
  | _ => exact act_stopped h

/-! ### Reset and supply (R83, R162) -/

/-- RESET# asserted at a part with supply. -/
theorem exec_resetAssert {s : State} (h : s.power ≠ .off) :
    exec .resetAssert s = .next (State.powerOn s.ctl.number .held s.freeIndex s.pending) := by
  simp only [exec, execResetAssert, h, if_false]
  rfl

/-- RESET# released, or the supply back. -/
theorem exec_resetRelease {straps : StationNumber} {s : State} (h : s.power ≠ .running) :
    exec (.resetRelease straps) s =
      .next (State.powerOn straps .running s.freeIndex s.pending) := by
  simp only [exec, execResetRelease, h, if_false]

/-- After power-on reset no block is held by a descriptor, and every block is in the pool in ascending order (R97). -/
theorem reset_blocks :
    State.reset.mem.pool = List.range 128 ∧ descriptorBlocks State.reset = [] ∧
      recordBlocks State.reset = [] ∧ constructionBlocks State.reset = [] :=
  ⟨rfl, by decide, rfl, rfl⟩

/-- After power-on reset every entry of the frame table is FREE (R121). -/
theorem reset_table (i : Fin 16) : State.reset.tm.table[i] = Descriptor.empty := by
  simp [State.reset, State.powerOn, TransmitManager.cleared]

/-- After power-on reset no group is subscribed to (R159, R162). -/
theorem reset_subscriptions (g : Fin 16) : State.reset.ctl.subscriptions[g] = none := by
  simp [State.reset, State.powerOn, StationController.powerOn]

/-- Every block has one owner after power-on reset: the pool. -/
theorem reset_owned : BlocksOwned State.reset := by
  obtain ⟨pool, table, records, building⟩ := reset_blocks
  refine ⟨?_, fun i _ => by rw [reset_table]; rfl, fun _ => rfl⟩
  simp [ownedBlocks, pool, table, records, building, Config.blockCount]

end Sys2Proof.Machine

open Sys2Proof Sys2Proof.Machine

/-- Settles O3: each row is an action that leaves the queue, and an action of a part without supply or in reset changes nothing. -/
theorem commandsAnswerAndNeedPower : Obligations.CommandsAnswerAndNeedPower :=
  ⟨exec_answers, fun _ _ h ha hl hr => exec_stopped h ha hl hr⟩

/-- Settles O4: what the three commands of reset and supply answer, and the values of the state after power-on reset, block by block. -/
theorem resetGivesPowerOnValues : Obligations.ResetGivesPowerOnValues := by
  obtain ⟨pool, table, records, building⟩ := reset_blocks
  refine ⟨fun s straps => ⟨exec_resetAssert, rfl, exec_resetRelease⟩,
    rfl, rfl, rfl, rfl, rfl, rfl, reset_subscriptions, rfl, rfl, rfl, rfl, rfl, rfl, rfl, rfl,
    fun i => by rw [reset_table]; rfl, rfl, rfl, rfl, rfl, rfl, rfl, rfl, rfl, pool,
    by simp [transmitHeld, table], by simp [receiveHeld, records, building], rfl, rfl, rfl, rfl,
    rfl, rfl, rfl, rfl, rfl, rfl, rfl, rfl, rfl⟩

/-- Settles O60: the defaults are legal, the blocks are in the pool, the tables and queues are empty, and the station is off the bus. -/
theorem resetHasTheInvariants : Obligations.ResetHasTheInvariants := by
  obtain ⟨-, table, -, -⟩ := reset_blocks
  have frames : AttemptsKept State.reset := powerOn_attempts
  have quota : QuotaKept State.reset := by simp [QuotaKept, transmitHeld, table]
  exact ⟨rfl, powerOn_legal, ⟨rfl, rfl, rfl, rfl⟩, ⟨by decide, by decide⟩, quota, frames.orders,
    reset_owned, offBusQuiet_of_rest (powerOn_rest _ _ _ _), frames.inRange⟩
end


section
/-! CONFIGURE and SET GROUP (R96, R114, R144, R157–R159, R179). -/

namespace Sys2Proof.Machine

open Sys2Proof

/-! ### CONFIGURE (R157, R158) -/

section Configure

variable {stall silence retry reserve notify age unicast broadcast : Byte} {c : Configuration}
  {s : State}

/-- The ranges of the parameter bytes of CONFIGURE, and the silence time against the stall time (R157, R179). -/
def ParametersInRange (stall silence retry reserve notify : Byte) : Prop :=
  1 ≤ stall.toNat ∧ 1 ≤ silence.toNat ∧ retry.toNat ≤ 7 ∧ reserve.toNat ≤ 96 ∧
    1 ≤ notify.toNat ∧ notify.toNat ≤ 32 ∧ stall.toNat < silence.toNat * 10

/-- A record is made of the parameter bytes exactly when they are in range and both policy codes are defined; it holds the bytes' values. -/
theorem configurationOf_iff :
    configurationOf stall silence retry reserve notify age unicast broadcast = some c ↔
      ParametersInRange stall silence retry reserve notify ∧
        ∃ u b, policyOfCode unicast = some u ∧ policyOfCode broadcast = some b ∧
          c = { stallLimit := stall.toNat, silenceLimit := silence.toNat,
                retryLimit := retry.toNat, receiveReserve := reserve.toNat,
                notifyThreshold := notify.toNat, ageLimit := age.toNat, unicast := u,
                broadcast := b } := by
  cases hu : policyOfCode unicast with
  | none => simp [configurationOf, hu]
  | some u =>
    cases hb : policyOfCode broadcast with
    | none => simp [configurationOf, hu, hb]
    | some b => simp [configurationOf, hu, hb, ParametersInRange, eq_comm]

/-- The descriptors' blocks are within the quota of the new record, and their attempts within its retry limit and one more (R96, R114, log 30). -/
theorem configurationFits_iff :
    configurationFits c s = true ↔
      transmitHeld s ≤ 128 - c.receiveReserve ∧
        ∀ i : Fin 16, s.tm.table[i].state ≠ .free →
          s.tm.table[i].attempts ≤ c.retryLimit + 1 := by
  simp only [configurationFits, Config.blockCount, Bool.and_eq_true, decide_eq_true_eq,
    List.all_eq_true, mem_entryNumbers, forall_const, Bool.or_eq_true, beq_iff_eq]
  refine and_congr_right fun _ => forall_congr' fun i => ?_
  exact ⟨fun h hf => h.resolve_left hf, fun h => or_iff_not_imp_left.2 h⟩

/-- CONFIGURE outside OFFLINE. -/
theorem cmdConfigure_elsewhere (h : s.ctl.state ≠ .offline) :
    cmdConfigure stall silence retry reserve notify age unicast broadcast s =
      (s, statusReply .badState) := by
  simp [cmdConfigure, h]

/-- CONFIGURE accepted. -/
theorem cmdConfigure_accepts (h : s.ctl.state = .offline)
    (hc : configurationOf stall silence retry reserve notify age unicast broadcast = some c)
    (hf : configurationFits c s = true) :
    cmdConfigure stall silence retry reserve notify age unicast broadcast s =
      (reevaluateAged { s with ctl.configuration := c }, statusReply .ok) := by
  simp [cmdConfigure, h, hc, hf]

/-- CONFIGURE with parameters that make no record, or one that does not fit. -/
theorem cmdConfigure_refuses (h : s.ctl.state = .offline)
    (hc : ∀ c, configurationOf stall silence retry reserve notify age unicast broadcast = some c →
      configurationFits c s = false) :
    cmdConfigure stall silence retry reserve notify age unicast broadcast s =
      (s, statusReply .badParam) := by
  cases hm : configurationOf stall silence retry reserve notify age unicast broadcast with
  | none => simp [cmdConfigure, h, hm]
  | some c => simp [cmdConfigure, h, hm, hc c hm]

end Configure

/-! ### SET GROUP (R159) -/

section SetGroup

variable {group mode : Byte} {s : State}

/-- SET GROUP outside OFFLINE. -/
theorem cmdSetGroup_elsewhere (h : s.ctl.state ≠ .offline) :
    cmdSetGroup group mode s = (s, statusReply .badState) := by
  simp [cmdSetGroup, h]

/-- SET GROUP for a group above 15 or with an undefined mode. -/
theorem cmdSetGroup_refuses (h : s.ctl.state = .offline)
    (hp : 0x0F < group.toNat ∨ modeOfCode mode = none) :
    cmdSetGroup group mode s = (s, statusReply .badParam) := by
  cases hm : modeOfCode mode with
  | none => simp [cmdSetGroup, h, hm]
  | some m =>
    have above : 15 < group.toNat := hp.resolve_right (by simp [hm])
    simp [cmdSetGroup, h, hm, Nat.not_lt.2 above]

/-- SET GROUP writes the entry of its group. -/
theorem cmdSetGroup_accepts {g : Fin 16} {m : Option Policy} (h : s.ctl.state = .offline)
    (hm : modeOfCode mode = some m) :
    cmdSetGroup (BitVec.ofNat 8 (g : Nat)) mode s =
      ({ s with ctl.subscriptions := s.ctl.subscriptions.set g m }, statusReply .ok) := by
  have number : (BitVec.ofNat 8 (g : Nat)).toNat = (g : Nat) := by
    rw [BitVec.toNat_ofNat]
    exact Nat.mod_eq_of_lt (by omega)
  simp [cmdSetGroup, h, hm, number]

end SetGroup

end Sys2Proof.Machine

open Sys2Proof Sys2Proof.Machine

/-- Settles O13: a record is made exactly of parameters in range, and taken exactly if it fits what the descriptors hold. -/
theorem configureAndSetGroup : Obligations.ConfigureAndSetGroup := by
  have configures {a1 a2 a3 a4 a5 a6 a7 a8 : Byte} {s t : State} {st : Status} (hp : PortFree s)
      (e : cmdConfigure a1 a2 a3 a4 a5 a6 a7 a8 s = (t, statusReply st)) :
      NextIs (.configure a1 a2 a3 a4 a5 a6 a7 a8) s
        { t with port := HostPort.busyWith (some 0x01) (statusReply st) } :=
    nextIs_of_command rfl hp e (by simp [statusReply]) rfl
  have sets {a1 a2 : Byte} {s t : State} {st : Status} (hp : PortFree s)
      (e : cmdSetGroup a1 a2 s = (t, statusReply st)) :
      NextIs (.setGroup a1 a2) s
        { t with port := HostPort.busyWith (some 0x02) (statusReply st) } :=
    nextIs_of_command rfl hp e (by simp [statusReply]) rfl
  refine ⟨?accepted, fun a1 a2 a3 a4 a5 a6 a7 a8 s hp => ⟨fun ho =>
      ⟨configures hp (cmdConfigure_elsewhere ho), sets hp (cmdSetGroup_elsewhere ho)⟩,
    fun ho h => sets hp (cmdSetGroup_refuses ho h), fun ho bad => ?refused⟩,
    fun g mode m s hp ho hm => sets hp (cmdSetGroup_accepts ho hm)⟩
  case accepted =>
    intro stall silence retry reserve notify age unicast broadcast u b s hp ho h1 h2 h3 h4 h5 h6 h7
      hu hb held tried
    exact configures hp (cmdConfigure_accepts ho (configurationOf_iff.2
      ⟨⟨h1, h2, h3, h4, h5, h6, h7⟩, u, b, hu, hb, rfl⟩) (configurationFits_iff.2 ⟨held, tried⟩))
  case refused =>
    refine configures hp (cmdConfigure_refuses ho fun c hc => Bool.eq_false_iff.2 fun hf => ?_)
    obtain ⟨⟨h1, h2, h3, h4, h5, h6, h7⟩, u, b, hu, hb, rfl⟩ := configurationOf_iff.1 hc
    obtain ⟨held, tried⟩ := configurationFits_iff.1 hf
    rcases bad with rfl | rfl | h | h | rfl | h | h | h | h | h | ⟨i, used, beyond⟩
    · exact absurd h1 (by decide)
    · exact absurd h2 (by decide)
    · exact absurd h3 (Nat.not_le.2 h)
    · exact absurd h4 (Nat.not_le.2 h)
    · exact absurd h5 (by decide)
    · exact absurd h6 (Nat.not_le.2 h)
    · cases h.symm.trans hu
    · cases h.symm.trans hb
    · exact absurd h7 (Nat.not_lt.2 h)
    · exact absurd held (Nat.not_le.2 h)
    · exact absurd (tried i used) (Nat.not_le.2 beyond)
end


section
/-! JOIN, LEAVE and the entry into OFFLINE of a station clear of the bus (R1, R4, R20, R33, R82, R119, R120, R148–R155). -/

namespace Sys2Proof.Machine

open Sys2Proof

/-! ### The entry into OFFLINE with nothing to give up (R82, R119, R120, R145) -/

/-- A view that holds no rendezvous leaves the bus without a record (R82). -/
theorem viewLeavesBus_unheld {s : State} (h : viewHoldsRendezvous s.rdv.view = false) :
    viewLeavesBus s =
      { s with rdv.noted := none, rdv.firePulse := none, rdv.view := View.absent } := by
  simp only [viewHoldsRendezvous] at h
  simp only [viewLeavesBus]
  cases hv : s.rdv.view.state <;> simp [hv, setView] at h ⊢

/-- Nothing SELECTED, nothing in reception, no rendezvous held and an EMPTY slot: the entry has nothing to give up. -/
structure NothingToGiveUp (s : State) : Prop where
  reception : s.rm.state = .idle
  view : viewHoldsRendezvous s.rdv.view = false
  selected : selectedFrame s = none
  slot : s.tm.slot = none

/-- The entry into OFFLINE or FAULTED of a station that has nothing to give up. -/
theorem leaveBus_eq {target : StationState} {reason : StationReason} {s : State}
    (h : NothingToGiveUp s) :
    leaveBus target reason s = { s with
      line := LineInterface.quiet
      hs := Handshake.idle
      arb := Arbiter.off
      fe := FrameEngine.idle
      tm.handed := none
      rdv.noted := none
      rdv.firePulse := none
      rdv.view := View.absent
      pins := PinLevels.ofSense s.line.sense
      ctl.state := target
      ctl.joinPhase := none
      ctl.leaveRequested := false
      ctl.pendingFault := none
      cause.station := true
      cause.reason := some reason } := by
  simp [leaveBus, returnSelected_none h.selected, h.reception, viewLeavesBus_unheld h.view,
    emptySlotAtEntry, h.slot, handStation]

/-- The entry with nothing to give up leaves the host port alone. -/
theorem leaveBus_port {target : StationState} {reason : StationReason} {s : State}
    (h : NothingToGiveUp s) :
    { leaveBus target reason s with port := s.port } = leaveBus target reason s := by
  rw [leaveBus_eq h]

/-- A command whose action ends with the entry into OFFLINE, with nothing to give up there and the port as given, has left the bus and lost neither an outcome record nor a count. -/
theorem leavesBus_of_nextIs {c : Instr} {s w : State} {reason : StationReason} {p : HostPort}
    (h : NextIs c s { leaveBus .offline reason w with port := p }) (hw : NothingToGiveUp w) :
    ∃ t, exec c s = .next t ∧ LeftTheBus w t .offline reason ∧
      t.rdv.outcomes = w.rdv.outcomes ∧ t.cause.counters = w.cause.counters ∧ t.port = p := by
  obtain ⟨t, ht, same, kept, -⟩ := h
  rw [leaveBus_eq hw] at same kept
  refine ⟨t, ht, ?_, by rw [same], by rw [kept], by rw [same]⟩
  have station : t.cause.station = true := by rw [kept]
  have named : t.cause.reason = some reason := by rw [kept]
  have mask : t.cause.mask = w.cause.mask := by rw [kept]
  rw [same]
  exact ⟨rfl, station, named, rfl, rfl, rfl, rfl, rfl, hw.slot, rfl, rfl, rfl, rfl, rfl, rfl, rfl,
    rfl, rfl, mask⟩

/-! ### LEFT and JOIN_ABANDONED (R154, R155) -/

/-- A LEAVING station that is clear of the bus enters OFFLINE. -/
theorem left_leaves {s : State} (h : s.ctl.state = .leaving) (hc : clearOfBus s = true)
    (hr : s.ctl.resetInProgress = false) : left s = leaveBus .offline .left s := by
  simp [left, canLeave, h, hc, hr]

/-- A station that is not clear of the bus stays LEAVING. -/
theorem left_waits {s : State} (h : clearOfBus s = false) : left s = s := by
  simp [left, canLeave, h]

/-- A join-abandoning station that is clear of the bus with its slot EMPTY enters OFFLINE. -/
theorem joinAbandoned_leaves {s : State} (h : s.ctl.state = .joining)
    (hp : s.ctl.joinPhase = some .participating) (hl : s.ctl.leaveRequested = true)
    (hc : clearOfBus s = true) (hs : s.tm.slot = none) (hr : s.ctl.resetInProgress = false) :
    joinAbandoned s = leaveBus .offline .joinAbandoned s := by
  simp [joinAbandoned, canAbandonJoin, h, hp, hl, hc, hs, hr]

/-- A station that is not clear of the bus goes on with its join. -/
theorem joinAbandoned_waits {s : State} (h : clearOfBus s = false) : joinAbandoned s = s := by
  simp [joinAbandoned, canAbandonJoin, h]

/-! ### JOIN (R149) -/

/-- The station enters JOINING and senses the lines, as their levels are at the pins (R149, log 8). -/
def joinSensed (s : State) : State :=
  { s with
    line.sense.own := s.pins.own
    line.sense.req := s.pins.req
    line.sense.brk := s.pins.brk
    line.sense.trg := s.pins.trg
    ctl.state := .joining
    ctl.joinPhase := some .awaitClear
    ctl.leaveRequested := false
    cause.station := true
    cause.reason := some .joinStarted }

/-- JOIN in OFFLINE, by what it finds on the lines. -/
theorem cmdJoin_offline {s : State} (h : s.ctl.state = .offline) :
    cmdJoin s =
      (if canParticipate (joinSensed s) then beginParticipation (joinSensed s) else joinSensed s,
        statusReply .ok) := by
  simp only [cmdJoin, h, if_true]
  rfl

/-- JOIN in OFFLINE, with OWN or BRK asserted on the lines. -/
theorem cmdJoin_waits {s : State} (h : s.ctl.state = .offline)
    (hb : s.pins.own = true ∨ s.pins.brk = true) :
    cmdJoin s = (joinSensed s, statusReply .ok) := by
  have waits : canParticipate (joinSensed s) = false := by
    rcases hb with hb | hb <;> simp [canParticipate, joinSensed, hb]
  rw [cmdJoin_offline h, waits]
  rfl

/-- JOIN outside OFFLINE. -/
theorem cmdJoin_elsewhere {s : State} (h : s.ctl.state ≠ .offline) :
    cmdJoin s = (s, statusReply .badState) := by
  simp [cmdJoin, h]

/-! ### LEAVE (R153, R154) -/

/-- LEAVE in ONLINE with a rendezvous held or the slot in use. -/
theorem cmdLeave_busy {s : State} (h : s.ctl.state = .online)
    (hb : viewHoldsRendezvous s.rdv.view = true ∨ s.tm.slot ≠ none) :
    cmdLeave s = (s, statusReply .rdvBusy) := by
  have busy : (viewHoldsRendezvous s.rdv.view || s.tm.slot.isSome) = true := by
    simpa [Option.isSome_iff_ne_none] using hb
  simp [cmdLeave, h, busy]

/-- LEAVE in ONLINE with neither. -/
theorem cmdLeave_online {s : State} (h : s.ctl.state = .online)
    (hv : viewHoldsRendezvous s.rdv.view = false) (hs : s.tm.slot = none) :
    cmdLeave s = (startLeaving s, statusReply .ok) := by
  simp [cmdLeave, h, hv, hs]

/-- LEAVE in JOINING. -/
theorem cmdLeave_joining {s : State} (h : s.ctl.state = .joining) :
    cmdLeave s = (abandonJoin s, statusReply .ok) := by
  simp [cmdLeave, h]

/-- LEAVE where there is nothing to leave. -/
theorem cmdLeave_elsewhere {s : State}
    (h : s.ctl.state = .offline ∨ s.ctl.state = .leaving ∨ s.ctl.state = .faulted) :
    cmdLeave s = (s, statusReply .badState) := by
  rcases h with h | h | h <;> simp [cmdLeave, h]

/-- A join that is being abandoned is not abandoned again. -/
theorem abandonJoin_again {s : State} (h : s.ctl.leaveRequested = true) : abandonJoin s = s := by
  simp [abandonJoin, h]

/-- A join is abandoned before participation: the station enters OFFLINE at once (R154). -/
theorem abandonJoin_awaiting {s : State} (hl : s.ctl.leaveRequested = false)
    (hp : s.ctl.joinPhase = some .awaitClear) :
    abandonJoin s = leaveBus .offline .joinAbandoned { s with ctl.leaveRequested := true } := by
  simp [abandonJoin, hl, hp]

/-- A join is abandoned in participation: the HELLO is withdrawn (R119, R154). -/
theorem abandonJoin_participating {s : State} (hl : s.ctl.leaveRequested = false)
    (hp : s.ctl.joinPhase = some .participating) :
    abandonJoin s = joinAbandoned (removeSlotFrame { s with ctl.leaveRequested := true }) := by
  simp [abandonJoin, hl, hp]

/-- A QUEUED frame leaves the slot at once (R119). -/
theorem removeSlotFrame_queued {f : SlotFrame} {s : State} (hs : s.tm.slot = some f)
    (hf : f.state = .queued) : removeSlotFrame s = { s with tm.slot := none } := by
  simp [removeSlotFrame, hs, hf, setSlot]

/-- A frame that is SELECTED or IN_FLIGHT stays with its removal requested (R119). -/
theorem removeSlotFrame_requests {f : SlotFrame} {s : State} (hs : s.tm.slot = some f)
    (hf : f.state ≠ .queued) :
    removeSlotFrame s = { s with tm.slot := some { f with removal := true } } := by
  cases hq : f.state with
  | queued => exact absurd hq hf
  | selected | inFlight => simp [removeSlotFrame, hs, hq, setSlot]

/-- The HELLO of an abandoned join has left the slot (R154). -/
def joinWithdrawn (s : State) : State := { s with ctl.leaveRequested := true, tm.slot := none }

/-- A join whose HELLO is QUEUED is abandoned (R119, R154). -/
theorem abandonJoin_queued {f : SlotFrame} {s : State} (hl : s.ctl.leaveRequested = false)
    (hp : s.ctl.joinPhase = some .participating) (hs : s.tm.slot = some f)
    (hf : f.state = .queued) : abandonJoin s = joinAbandoned (joinWithdrawn s) := by
  rw [abandonJoin_participating hl hp, removeSlotFrame_queued (by exact hs) hf]
  rfl

/-- A join whose HELLO is in an attempt is abandoned (R119, R154). -/
theorem abandonJoin_attempted {f : SlotFrame} {s : State} (hl : s.ctl.leaveRequested = false)
    (hp : s.ctl.joinPhase = some .participating) (hs : s.tm.slot = some f)
    (hf : f.state ≠ .queued) :
    abandonJoin s = joinAbandoned { s with
      ctl.leaveRequested := true, tm.slot := some { f with removal := true } } := by
  rw [abandonJoin_participating hl hp, removeSlotFrame_requests (by exact hs) hf]

/-- LEAVE given to a free port, from the controller's answer. -/
theorem nextIs_leave {s t : State} {st : Status} (hp : PortFree s)
    (e : cmdLeave s = (t, statusReply st)) :
    NextIs .leave s { t with port := HostPort.busyWith (some 0x04) (statusReply st) } :=
  nextIs_of_command rfl hp e (by simp [statusReply]) rfl

end Sys2Proof.Machine

open Sys2Proof Sys2Proof.Machine

/-- Settles O14: the answer by the station state, and with it by the port, the slot and the lines. -/
theorem joinAndLeaveByStationState : Obligations.JoinAndLeaveByStationState := by
  refine ⟨fun s hp => ?_, fun s hp => ⟨fun ho hb => nextIs_leave hp (cmdLeave_busy ho hb),
    fun ho hv hs hc => ?starts, fun hj hpart hl hc => ?withdraws,
    fun hj hpart hl hc hres hi hv hsel f hf hq => ?leaves, fun hj hl => ?again,
    fun h => nextIs_leave hp (cmdLeave_elsewhere h)⟩⟩
  · have joins {t : State} {st : Status} (e : cmdJoin s = (t, statusReply st)) :
        NextIs .join s { t with port := HostPort.busyWith (some 0x03) (statusReply st) } :=
      nextIs_of_command rfl hp e (by simp [statusReply]) rfl
    exact ⟨fun ho hb => joins (cmdJoin_waits ho hb), fun ho => joins (cmdJoin_elsewhere ho)⟩
  case starts =>
    have leaves := cmdLeave_online ho hv hs
    rw [startLeaving, left_waits (by exact hc)] at leaves
    exact nextIs_leave hp leaves
  case withdraws =>
    have leaves := cmdLeave_joining hj
    refine ⟨fun f hf hq => ?_, fun f hf hq => ?_⟩
    · rw [abandonJoin_attempted hl hpart hf hq, joinAbandoned_waits (by exact hc)] at leaves
      exact nextIs_leave hp leaves
    · rw [abandonJoin_queued hl hpart hf hq, joinAbandoned_waits (by exact hc)] at leaves
      exact nextIs_leave hp leaves
  case leaves =>
    have leaves := cmdLeave_joining hj
    rw [abandonJoin_queued hl hpart hf hq,
      joinAbandoned_leaves (by exact hj) (by exact hpart) rfl (by exact hc) rfl (by exact hres)]
      at leaves
    have unselected : selectedFrame (joinWithdrawn s) = none :=
      selectedFrame_none.2 ⟨by simp [joinWithdrawn], (selectedFrame_none.1 hsel).2⟩
    have gone := leavesBus_of_nextIs (nextIs_leave hp leaves)
      (NothingToGiveUp.mk hi hv unselected rfl)
    exact gone
  case again =>
    have leaves := cmdLeave_joining hj
    rw [abandonJoin_again hl] at leaves
    exact nextIs_leave hp leaves

/-- Settles O15: each of the four entries into OFFLINE is the one operation, at a station that has nothing to give up. -/
theorem clearStationsGoOffline : Obligations.ClearStationsGoOffline := by
  refine ⟨fun s hrun hc hs hres hi hv hsel => ?_, fun s hp hj hpart hl hs hi hv hsel => ?_⟩
  · have rest : NothingToGiveUp s := ⟨hi, hv, hsel, hs⟩
    refine ⟨fun h => ?_, fun h hport => ?_, fun hj hpart hl => ?_⟩
    · exact leavesBus_of_nextIs (nextIs_of_change rfl hrun
        ((left_leaves h hc hres).trans (leaveBus_port rest).symm)) rest
    · have leaves := cmdLeave_online h hv hs
      rw [startLeaving, left_leaves rfl (by exact hc) (by exact hres)] at leaves
      have gone := leavesBus_of_nextIs (nextIs_leave ⟨hrun, hport⟩ leaves)
        (NothingToGiveUp.mk hi hv hsel hs)
      exact gone
    · exact leavesBus_of_nextIs (nextIs_of_change rfl hrun
        ((joinAbandoned_leaves hj hpart hl hc hs hres).trans (leaveBus_port rest).symm)) rest
  · have leaves := cmdLeave_joining hj
    rw [abandonJoin_awaiting hl hpart] at leaves
    have gone := leavesBus_of_nextIs (nextIs_leave hp leaves) (NothingToGiveUp.mk hi hv hsel hs)
    exact gone
end


section
/-! SOFT RESET by the station state (R163, R164, R176). -/

namespace Sys2Proof.Machine

open Sys2Proof

/-- A command whose clearing was made at once leaves the port as its owner did (R176). -/
theorem deliver_done {code : Byte} {parameters : List Byte} {s t : State}
    (e : answerTo code parameters s = (t, .resetDone)) : deliver code parameters s = t := by
  simp only [deliver, e]

/-- The clearing at a station off the bus: the pins keep what is noted there, and STATION is handed by a FAULTED station only (R164). -/
theorem softResetClearing_offBus {s : State} (h : senses s = false) :
    softResetClearing s = { s with
      line := LineInterface.quiet
      hs := Handshake.idle
      arb := Arbiter.off
      fe := FrameEngine.idle
      tm := TransmitManager.cleared
      rm := ReceiveManager.cleared
      mem.pool := s.mem.pool ++ descriptorBlocks s ++ recordBlocks s ++ constructionBlocks s
      rdv := RendezvousUnit.cleared
      ctl.state := .offline
      ctl.joinPhase := none
      ctl.leaveRequested := false
      ctl.resetInProgress := false
      ctl.pendingFault := none
      port := HostPort.idle
      cause :=
        { s.cause with
          port := false, station := decide (s.ctl.state ≠ .offline), bus := false,
          reason := if s.ctl.state = .offline then none else some .reset,
          counters := Counters.zero } } := by
  by_cases ho : s.ctl.state = .offline <;>
    simp [softResetClearing, h, ho, handStation, CauseUnit.cleared]

/-- SOFT RESET in OFFLINE or FAULTED makes the clearing at once. -/
theorem cmdSoftReset_offBus {s : State} (h : s.ctl.state = .offline ∨ s.ctl.state = .faulted) :
    cmdSoftReset s = (softResetClearing s, .resetDone) := by
  rcases h with h | h <;> simp [cmdSoftReset, h]

/-- SOFT RESET on the bus asks for a clear break and waits for its end (R163). -/
theorem cmdSoftReset_onBus {s : State} (h : senses s = true) :
    cmdSoftReset s = (requestClearBreak { s with ctl.resetInProgress := true }, .resetBusy) := by
  simp only [senses] at h
  cases hs : s.ctl.state with
  | joining | online | leaving => simp [cmdSoftReset, hs]
  | offline | faulted => simp [hs] at h

end Sys2Proof.Machine

open Sys2Proof Sys2Proof.Machine

/-- Settles O16: off the bus the clearing, in the command's own action; on the bus the clear break that the clearing waits for. -/
theorem softResetByStationState : Obligations.SoftResetByStationState := by
  refine ⟨fun s hp hoff => ?_, fun s hp hon hg hd hc => ?_⟩
  · have silent : senses s = false := by rcases hoff with h | h <;> simp [senses, h]
    have done : deliver 0x7F [] s = softResetClearing s := deliver_done (cmdSoftReset_offBus hoff)
    exact nextIs_of_change rfl hp.1
      ((giveCommand_free hp.2).trans (done.trans (softResetClearing_offBus silent)))
  · have asks := cmdSoftReset_onBus hon
    rw [requestClearBreak_undelayed (by exact hd),
      startClearBreak_begins (by exact hg) (by exact hc)] at asks
    exact nextIs_of_command rfl hp asks (by simp) rfl
end


section
/-! The beginning of participation (R5, R15, R20, R21, R84, R101, R150). -/

namespace Sys2Proof.Machine

open Sys2Proof

/-- The view at the beginning of participation, by the level of TRG (R84). -/
theorem observeAtJoin_eq (s : State) :
    observeAtJoin s = { s with
      rdv.view := if s.line.sense.trg then { View.absent with state := .observing }
        else s.rdv.view } := by
  cases h : s.line.sense.trg <;> simp [observeAtJoin, h, setView]

/-- A station whose join begins to participate, before its arbiter leaves OFF: a participant at rest, its view as TRG has it, the silence timer running while OWN or REQ is sensed (R5, R15, R84). -/
def restedAtJoin (s : State) : State :=
  { s with
    line.drive.pend := true
    line.drive.wait := false
    hs.role := .participant .ready
    hs.silence := if s.line.sense.own || s.line.sense.req then some 0 else none
    rdv.view := if s.line.sense.trg then { View.absent with state := .observing } else s.rdv.view
    ctl.joinPhase := some .participating }

/-- An arbiter in OUTSIDE, with the HELLO waiting in the slot. -/
def helloWaits (s : State) : State :=
  { s with
    arb.phase := .outside
    arb.bid := none
    arb.settle := none
    arb.roundGap := none
    tm.slot := some { state := .queued, kind := .hello, attempts := 0, removal := false } }

/-- An arbiter that bids with the HELLO, its whole bid driven. -/
def helloBids (s : State) : State :=
  { s with
    line.drive.req := true
    line.drive.data := 0x80 ||| numberByte s.ctl.number
    arb.phase := .bidding
    arb.bid := some (0x80 ||| numberByte s.ctl.number)
    arb.settle := some 0
    arb.roundGap := none
    tm.slot := some { state := .selected, kind := .hello, attempts := 0, removal := false } }

/-- With the slot EMPTY a joining station enters STANDBY and asks for nothing yet. -/
theorem enterStandby_joining {s : State} (hj : s.ctl.state = .joining) (hs : s.tm.slot = none) :
    enterStandby s = { s with
      line.sense.data := 0
      arb.phase := .standby
      arb.bid := none
      arb.settle := none
      arb.roundGap := some 0 } := by
  refine askArbiter_without ?_
  simp [eligibleFrame, hj, eligibleSlot_none, hs]

/-- A HELLO placed by a joining station in STANDBY, on D0–D7 sensed released, bids at once (R21, R25). -/
theorem placeHello_bids {s : State} (hj : s.ctl.state = .joining)
    (hp : s.ctl.joinPhase = some .participating) (ha : s.arb.phase = .standby)
    (hd : s.line.sense.data = 0) : placeSlotFrame .hello s = helloBids s := by
  have eligible : eligibleFrame (setSlot (some (SlotFrame.placed .hello)) s) = some .slot := by
    rw [eligibleFrame_participating (by exact hj) (by exact hp)]
    exact eligibleSlot_queued (f := .placed .hello) rfl rfl
  have drives (bid : Byte) : bidDrive bid s.line.sense.data = bid := by rw [hd, bidDrive_zero]
  rw [placeSlotFrame, askArbiter_requests (by exact ha) eligible, openWindow_slot rfl]
  simp [setSlot, SlotFrame.placed, windowOpened, slotSelected, bidByte, drives, helloBids]

/-- With REQ sensed asserted the arbiter leaves OFF for OUTSIDE, and the HELLO waits (R20). -/
theorem beginParticipation_waits {s : State} (hr : s.line.sense.req = true) :
    beginParticipation s = helloWaits (restedAtJoin s) := by
  simp [beginParticipation, observeAtJoin_eq, arbiterLeavesOff, resumeSilence, restAsParticipant,
    enterOutside, placeSlotFrame_waits, SlotFrame.placed, hr, helloWaits, restedAtJoin]

/-- With REQ sensed released the arbiter leaves OFF for STANDBY, and the HELLO bids (R20, R21). -/
theorem beginParticipation_bids {s : State} (hj : s.ctl.state = .joining)
    (hs : s.tm.slot = none) (hr : s.line.sense.req = false) :
    beginParticipation s = helloBids { restedAtJoin s with line.sense.data := 0 } := by
  rw [beginParticipation, arbiterLeavesOff, if_neg (by simp [resumeSilence, restAsParticipant, hr]),
    enterStandby_joining (by exact hj) (by exact hs), observeAtJoin_eq,
    placeHello_bids (by exact hj) rfl rfl rfl]
  rfl

end Sys2Proof.Machine

open Sys2Proof Sys2Proof.Machine

/-- Settles O53: PARTICIPATION_BEGIN and JOIN lead into one operation, whose HELLO waits or bids by the level of REQ. -/
theorem participationBeginsAtRest : Obligations.ParticipationBeginsAtRest := by
  intro req trg s hrun hres hslot atRest waits bids
  constructor
  · intro hj hp ho hb
    have onBus : OnBus s := ⟨hrun, by simp [senses, hj]⟩
    have begins : participationBegin req trg s =
        beginParticipation { s with line.sense.req := req, line.sense.trg := trg } :=
      if_pos (canParticipate_iff.2 ⟨hj, hp, ho, hb, hres⟩)
    exact ⟨fun hr => nextIs_participationBegin onBus (begins.trans (beginParticipation_waits hr)),
      fun hr => nextIs_participationBegin onBus
        (begins.trans (beginParticipation_bids hj hslot hr))⟩
  · intro hoff hport ho hb hreq htrg joining
    have free : canParticipate (joinSensed s) = true :=
      canParticipate_iff.2 ⟨rfl, rfl, ho, hb, hres⟩
    have begins : cmdJoin s = (beginParticipation (joinSensed s), statusReply .ok) := by
      rw [cmdJoin_offline hoff, if_pos free]
    have sensed : restedAtJoin (joinSensed s) = atRest joining := by
      simp [restedAtJoin, joinSensed, atRest, joining, ho, hb, hreq, htrg]
    refine ⟨fun hr => ?_, fun hr => ?_⟩
    · rw [beginParticipation_waits (hreq.trans hr), sensed] at begins
      exact nextIs_of_command rfl ⟨hrun, hport⟩ begins (by simp [statusReply]) rfl
    · rw [beginParticipation_bids rfl (by exact hslot) (hreq.trans hr), sensed] at begins
      exact nextIs_of_command rfl ⟨hrun, hport⟩ begins (by simp [statusReply]) rfl
end


section
/-! The accesses of the host by pins and phase: the byte of PHASE, and protocol errors (R165, R167–R169, R171–R173, R175, R176). -/

namespace Sys2Proof.Machine

open Sys2Proof

/-! ### The byte of PHASE (R167) -/

/-- Bit 7 of the byte of PHASE is INT, bits 6–3 are 0, and the phase code has the rest to itself. -/
theorem phaseByte_fields (s : State) :
    (phaseByte s).getLsbD 7 = s.cause.int ∧ (phaseByte s).extractLsb' 3 4 = 0 ∧
      (phaseByte s).extractLsb' 0 3 = (portPhaseCode s.port.phase).extractLsb' 0 3 := by
  unfold phaseByte
  cases s.cause.int <;> cases s.port.phase <;> decide

/-! ### The access by the phase (R168, R169, R172, R173, R175) -/

section Access

variable {b : Byte} {s : State}

/-- In COMMAND a DATA write is a command byte. -/
theorem dataWrite_command (h : s.port.phase = .command) : dataWrite b s = commandByte b s := by
  simp [dataWrite, h]

/-- In PARAM a DATA write is a parameter byte. -/
theorem dataWrite_parameter (h : s.port.phase = .param) : dataWrite b s = parameterByte b s := by
  simp [dataWrite, h]

/-- BUSY, RESULT and DATA_OUT take no DATA write. -/
theorem dataWrite_stray
    (h : s.port.phase = .busy ∨ s.port.phase = .result ∨ s.port.phase = .dataOut) :
    dataWrite b s = strayWrite s := by
  rcases h with h | h | h <;> simp [dataWrite, h]

/-- In RESULT a DATA read is a result byte. -/
theorem dataRead_result (h : s.port.phase = .result) : dataRead s = resultByte s := by
  simp [dataRead, h]

/-- In DATA_OUT a DATA read is a payload byte. -/
theorem dataRead_payload (h : s.port.phase = .dataOut) : dataRead s = payloadRead s := by
  simp [dataRead, h]

/-- COMMAND, PARAM, DATA_IN and BUSY have no byte for a DATA read. -/
theorem dataRead_stray
    (h : s.port.phase = .command ∨ s.port.phase = .param ∨ s.port.phase = .dataIn ∨
      s.port.phase = .busy) : dataRead s = strayRead s := by
  rcases h with h | h | h | h <;> simp [dataRead, h]

/-! ### Protocol errors (R175, R176) -/

/-- The BUSY of a soft reset is told by its reply. -/
theorem resetBusy_iff : resetBusy s = true ↔ s.port.reply = some .resetBusy := by
  simp [resetBusy]

/-- A write that is not taken sets PORT. -/
theorem strayWrite_error (h : s.port.reply ≠ some .resetBusy) :
    strayWrite s = { s with cause.port := true, port.driven := none } :=
  if_neg (mt resetBusy_iff.1 h)

/-- A write that is not taken is ignored in the BUSY of a soft reset. -/
theorem strayWrite_ignored (h : s.port.reply = some .resetBusy) :
    strayWrite s = { s with port.driven := none } :=
  if_pos (resetBusy_iff.2 h)

/-- A read without a byte sets PORT and returns 00h. -/
theorem strayRead_error (h : s.port.reply ≠ some .resetBusy) :
    strayRead s = { s with cause.port := true, port.driven := some 0x00 } :=
  if_neg (mt resetBusy_iff.1 h)

/-- A read without a byte is ignored in the BUSY of a soft reset, and returns 00h. -/
theorem strayRead_ignored (h : s.port.reply = some .resetBusy) :
    strayRead s = { s with port.driven := some 0x00 } :=
  if_pos (resetBusy_iff.2 h)

end Access

end Sys2Proof.Machine

open Sys2Proof Sys2Proof.Machine

/-- Settles O11: the fields of the byte do not overlap, and the pins of a read of PHASE make no command. -/
theorem phaseByteShowsIntAndPhase : Obligations.PhaseByteShowsIntAndPhase := by
  intro s b p
  obtain ⟨int, zeros, code⟩ := phaseByte_fields s
  exact ⟨int, zeros, code.trans (by cases s.port.phase <;> rfl), rfl⟩

/-- Settles O12: the pins and the phase give the row, and the row of a protocol error is an access that its phase does not take. -/
theorem accessesFollowPinsAndPhase : Obligations.AccessesFollowPinsAndPhase := by
  refine ⟨fun rd wr a0 b p => ⟨rfl, rfl, rfl, rfl, rfl, rfl, rfl, rfl, ?write, ?read⟩,
    fun b s hrun hreply => ⟨fun h => ?_, fun h => ?_⟩, fun b s hrun hbusy hreset => ⟨?_, ?_⟩⟩
  case write => rintro (rfl | rfl | rfl) <;> rfl
  case read => rintro (rfl | rfl | rfl | rfl) <;> rfl
  · exact nextIs_of_change rfl hrun ((dataWrite_stray h).trans (strayWrite_error hreply))
  · exact nextIs_of_change rfl hrun ((dataRead_stray h).trans (strayRead_error hreply))
  · exact nextIs_of_change rfl hrun
      ((dataWrite_stray (.inl hbusy)).trans (strayWrite_ignored hreset))
  · exact nextIs_of_change rfl hrun
      ((dataRead_stray (.inr (.inr (.inr hbusy)))).trans (strayRead_ignored hreset))
end


section
/-! Command and parameter bytes: the codes of the host port, and the command handed to its owner (R168, R169, R178). -/

namespace Sys2Proof.Machine

open Sys2Proof

/-! ### The codes (R168, R178) -/

/-- The code of a command (command table of 9.3). -/
def codeOfCommand : HostCommand → Byte
  | .configure => 0x01
  | .setGroup => 0x02
  | .join => 0x03
  | .leave => 0x04
  | .send => 0x10
  | .withdraw => 0x11
  | .reap => 0x12
  | .fetch => 0x20
  | .discard => 0x21
  | .openRdv => 0x30
  | .arm => 0x31
  | .cancel => 0x32
  | .outcome => 0x33
  | .causes => 0x40
  | .acknowledge => 0x41
  | .setMask => 0x42
  | .snapshot => 0x43
  | .softReset => 0x7F

/-- Every command is read back from its code. -/
theorem commandOfCode_codeOfCommand (c : HostCommand) :
    commandOfCode (codeOfCommand c) = some c := by
  cases c <;> rfl

/-- No byte but its code spells a command. -/
theorem eq_codeOfCommand : ∀ b : Byte, ∀ c ∈ commandOfCode b, b = codeOfCommand c := by
  decide +kernel

/-- A byte spells a command exactly if it is the command's code. -/
theorem commandOfCode_iff {b : Byte} {c : HostCommand} :
    commandOfCode b = some c ↔ b = codeOfCommand c :=
  ⟨eq_codeOfCommand b c, fun h => h ▸ commandOfCode_codeOfCommand c⟩

/-- A byte spells a class exactly if it is the class's code. -/
theorem classOfCode_iff {b : Byte} {c : TxClass} :
    classOfCode b = some c ↔ (b = 0x00 ∧ c = .normal) ∨ (b = 0x01 ∧ c = .urgent) := by
  refine ⟨fun h => ?_, by rintro (⟨rfl, rfl⟩ | ⟨rfl, rfl⟩) <;> rfl⟩
  unfold classOfCode at h
  split_ifs at h with normal urgent <;> cases h
  · exact .inl ⟨normal, rfl⟩
  · exact .inr ⟨urgent, rfl⟩

/-- A byte spells a policy exactly if it is the policy's code. -/
theorem policyOfCode_iff {b : Byte} {p : Policy} :
    policyOfCode b = some p ↔ (b = 0x01 ∧ p = .strict) ∨ (b = 0x02 ∧ p = .lenient) := by
  refine ⟨fun h => ?_, by rintro (⟨rfl, rfl⟩ | ⟨rfl, rfl⟩) <;> rfl⟩
  unfold policyOfCode at h
  split_ifs at h with strict lenient <;> cases h
  · exact .inl ⟨strict, rfl⟩
  · exact .inr ⟨lenient, rfl⟩

/-- A byte spells a subscription mode exactly if it is 0 for no policy, or the policy's code. -/
theorem modeOfCode_iff {b : Byte} {m : Option Policy} :
    modeOfCode b = some m ↔
      (b = 0x00 ∧ m = none) ∨ (b = 0x01 ∧ m = some .strict) ∨ (b = 0x02 ∧ m = some .lenient) := by
  refine ⟨fun h => ?_, by rintro (⟨rfl, rfl⟩ | ⟨rfl, rfl⟩ | ⟨rfl, rfl⟩) <;> rfl⟩
  unfold modeOfCode at h
  split_ifs at h with absent strict lenient <;> cases h
  · exact .inl ⟨absent, rfl⟩
  · exact .inr (.inl ⟨strict, rfl⟩)
  · exact .inr (.inr ⟨lenient, rfl⟩)

/-! ### The bytes of a command (R168, R169) -/

section Bytes

variable {b code : Byte} {c : HostCommand} {parameters : List Byte} {s : State}

/-- A command handed over leaves the port in BUSY with its owner's reply. -/
theorem deliver_owner (hc : commandOfCode code = some c)
    (hr : (ownerAction c parameters s).2 ≠ .resetDone) :
    deliver code parameters s =
      { (ownerAction c parameters s).1 with
        port := HostPort.busyWith (some code) (ownerAction c parameters s).2 } := by
  have answer : answerTo code parameters s = ownerAction c parameters s := by
    simp only [answerTo, hc]
  rw [deliver_reply (by rw [answer]; exact hr), answer]

/-- An unknown code is answered INVALID by the port itself. -/
theorem deliver_unknown (hc : commandOfCode code = none) :
    deliver code parameters s =
      { s with port := HostPort.busyWith (some code) (statusReply .invalid) } := by
  have answer : answerTo code parameters s = (s, statusReply .invalid) := by
    simp only [answerTo, hc]
  rw [deliver_reply (by rw [answer]; simp [statusReply]), answer]

/-- The byte of a command with parameters enters PARAM. -/
theorem commandByte_awaits {n : Nat} (h : parameterCount b = some (n + 1)) :
    commandByte b s = { s with
      port := { HostPort.idle with phase := .param, command := some b, toCome := n + 1 } } := by
  simp only [commandByte, h]

/-- The byte of a command without parameters hands it over. -/
theorem commandByte_delivers (h : parameterCount b = some 0) :
    commandByte b s = deliver b [] s := by
  simp only [commandByte, h]

/-- An unknown code is answered at once. -/
theorem commandByte_unknown (h : parameterCount b = none) :
    commandByte b s = deliver b [] s := by
  simp only [commandByte, h]

/-- A parameter byte that is not the last is kept. -/
theorem parameterByte_kept (h : 2 ≤ s.port.toCome) :
    parameterByte b s = { s with
      port.parameters := s.port.parameters ++ [b]
      port.toCome := s.port.toCome - 1
      port.driven := none } :=
  if_neg (by omega)

/-- The last parameter byte hands the command over. -/
theorem parameterByte_delivers (h : s.port.toCome = 1) (hc : s.port.command = some code) :
    parameterByte b s = deliver code (s.port.parameters ++ [b]) s := by
  simp [parameterByte, h, hc]

end Bytes

end Sys2Proof.Machine

open Sys2Proof Sys2Proof.Machine

/-- Settles O5: each byte by what is still to come, and each code read off its table. -/
theorem commandAndParameterBytes : Obligations.CommandAndParameterBytes := by
  refine ⟨fun b s hp => ?command, fun b s hrun hp => ?parameter, fun b c n => ?codes,
    fun _ => rfl, fun _ _ => classOfCode_iff, fun _ _ => policyOfCode_iff,
    fun _ _ => modeOfCode_iff⟩
  case command =>
    have taken {u : State} (e : commandByte b s = u) : NextIs (.commandByteWrite b) s u :=
      nextIs_of_change rfl hp.1 ((dataWrite_command hp.2).trans e)
    refine ⟨fun n hn => taken (commandByte_awaits hn), fun c hc hn hr => ?_, fun hc => ?_⟩
    · have none_to_come : parameterCount b = some 0 := by simp [parameterCount, hc, hn]
      exact taken ((commandByte_delivers none_to_come).trans (deliver_owner hc hr))
    · have unknown : parameterCount b = none := by simp [parameterCount, hc]
      exact taken ((commandByte_unknown unknown).trans (deliver_unknown hc))
  case parameter =>
    have taken {u : State} (e : parameterByte b s = u) : NextIs (.parameterByteWrite b) s u :=
      nextIs_of_change rfl hrun ((dataWrite_parameter hp).trans e)
    exact ⟨fun hn => taken (parameterByte_kept hn), fun code c hn hcode hc hr =>
      taken ((parameterByte_delivers hn hcode).trans (deliver_owner hc hr))⟩
  case codes =>
    rw [commandOfCode_iff]
    cases c <;> simp [codeOfCommand, parametersOf, eq_comm]
end


section
/-! The end of BUSY, and ABANDON by the phase it finds (R86, R103, R170, R174, R176). -/

namespace Sys2Proof.Machine

open Sys2Proof

section Busy

variable {s : State}

/-! ### SEND abandoned (R103, R174) -/

/-- The FILLING descriptor becomes FREE and its blocks are freed. -/
theorem abandonSend_frees {i : Fin 16} (hi : findDescriptor s (·.state == .filling) = some i) :
    abandonSend s = freeBlocks s.tm.table[i].blocks
      { s with tm.table := s.tm.table.set i Descriptor.empty } := by
  simp only [abandonSend, hi]
  rfl

/-- With no frame waiting for room the freed blocks join the pool, and nothing more follows. -/
theorem abandonSend_unawaited {i : Fin 16}
    (hi : findDescriptor s (·.state == .filling) = some i) (hw : NoRoomAwaited s) :
    abandonSend s = { s with
      tm.table := s.tm.table.set i Descriptor.empty
      mem.pool := s.mem.pool ++ s.tm.table[i].blocks } := by
  rw [abandonSend_frees hi, freeBlocks_unawaited (by exact hw)]

/-! ### The end of BUSY (R170, R174, R176) -/

variable (hp : s.port.phase = .busy)

include hp

/-- BUSY enters RESULT with the owner's bytes. -/
theorem busyEnd_result {bytes : List Byte} (hr : s.port.reply = some (.result bytes))
    (ha : s.port.abandonHeld = false) :
    busyEnd s = { s with
      port := { HostPort.idle with
        phase := .result, command := s.port.command, result := bytes,
        driven := s.port.driven } } := by
  simp [busyEnd, hp, hr, ha]

/-- BUSY enters DATA_IN for the payload bytes of SEND. -/
theorem busyEnd_dataIn {n : Nat} (hr : s.port.reply = some (.dataIn n))
    (ha : s.port.abandonHeld = false) :
    busyEnd s = { s with
      port := { HostPort.idle with
        phase := .dataIn, command := s.port.command, dataInCount := n,
        driven := s.port.driven } } := by
  simp [busyEnd, hp, hr, ha]

/-- A held ABANDON drops the result that BUSY would enter with. -/
theorem busyEnd_dropped {bytes : List Byte} (hr : s.port.reply = some (.result bytes))
    (ha : s.port.abandonHeld = true) : busyEnd s = dropResult s := by
  simp [busyEnd, hp, hr, ha]

/-- A held ABANDON ends the SEND whose payload BUSY would ask for. -/
theorem busyEnd_abandoned {n : Nat} (hr : s.port.reply = some (.dataIn n))
    (ha : s.port.abandonHeld = true) :
    busyEnd s = { abandonSend s with port := HostPort.idle } := by
  simp [busyEnd, hp, hr, ha]

/-- The BUSY of a soft reset does not end here. -/
theorem busyEnd_inReset (hr : s.port.reply = some .resetBusy) : busyEnd s = s := by
  simp [busyEnd, hp, hr]

/-! ### ABANDON in BUSY (R174, R176) -/

/-- In BUSY an ABANDON is held. -/
theorem abandon_held (hr : s.port.reply ≠ some .resetBusy) :
    abandon s = { s with port.abandonHeld := true, port.driven := none } := by
  simp [abandon, hp, resetBusy, hr]

/-- In the BUSY of a soft reset an ABANDON is ignored. -/
theorem abandon_ignored (hr : s.port.reply = some .resetBusy) :
    abandon s = { s with port.driven := none } := by
  simp [abandon, hp, resetBusy, hr]

end Busy

/-! ### ABANDON in the other phases (R174) -/

section Abandon

variable {s : State}

/-- In COMMAND there is nothing to abandon. -/
theorem abandon_command (hp : s.port.phase = .command) :
    abandon s = { s with port.driven := none } := by
  simp [abandon, hp]

/-- In PARAM and DATA_OUT the command ends and no owner is told. -/
theorem abandon_untold (hp : s.port.phase = .param ∨ s.port.phase = .dataOut) :
    abandon s = { s with port := HostPort.idle } := by
  rcases hp with hp | hp <;> simp [abandon, hp]

/-- In RESULT the result is dropped. -/
theorem abandon_result (hp : s.port.phase = .result) : abandon s = dropResult s := by
  simp [abandon, hp]

/-- In DATA_IN the SEND ends. -/
theorem abandon_dataIn (hp : s.port.phase = .dataIn) :
    abandon s = { abandonSend s with port := HostPort.idle } := by
  simp [abandon, hp]

end Abandon

end Sys2Proof.Machine

open Sys2Proof Sys2Proof.Machine

/-- Settles O7: the reply and a held ABANDON decide what BUSY ends in. -/
theorem busyEndsInTheOwnersReply : Obligations.BusyEndsInTheOwnersReply := by
  intro s hrun hp
  have ends {u : State} (e : busyEnd s = u) : NextIs .busyEnd s u := nextIs_of_change rfl hrun e
  refine ⟨fun bytes hr ha => ends (busyEnd_result hp hr ha),
    fun n hr ha => ends (busyEnd_dataIn hp hr ha),
    fun bytes hr ha => ends (busyEnd_dropped hp hr ha), fun n i hr ha hi hw => ?_,
    fun hr => ends (busyEnd_inReset hp hr)⟩
  refine ends ((busyEnd_abandoned hp hr ha).trans ?_)
  rw [abandonSend_unawaited hi hw]

/-- Settles O10: the phase decides, and in BUSY the phase that BUSY would enter. -/
theorem abandonByPhase : Obligations.AbandonByPhase := by
  intro b s hrun
  have acts {u : State} (e : abandon s = u) : NextIs (.abandon b) s u :=
    nextIs_of_change rfl hrun e
  have ends {u : State} (e : busyEnd s = u) : NextIs .busyEnd s u := nextIs_of_change rfl hrun e
  refine ⟨fun hp => acts (abandon_command hp), fun hp => acts (abandon_untold (.inl hp)),
    fun hp hr => acts (abandon_held hp hr), fun hp hr => acts (abandon_ignored hp hr),
    fun hp => acts (abandon_result hp), fun hp => acts (abandon_untold (.inr hp)),
    fun bytes hp hr ha => ends (busyEnd_dropped hp hr ha),
    fun i hi => ⟨fun hp => acts ((abandon_dataIn hp).trans ?_),
      fun n hp hr ha => ends ((busyEnd_abandoned hp hr ha).trans ?_),
      fun hp hw => acts ((abandon_dataIn hp).trans ?_)⟩⟩
  · rw [abandonSend_frees hi]
  · rw [abandonSend_frees hi]
  · rw [abandonSend_unawaited hi hw]
end


section
/-! Result bytes and payload bytes read by the host (R86, R107, R138, R172, R173). -/

namespace Sys2Proof.Machine

open Sys2Proof

/-! ### The bytes of a result (R172) -/

section Result

variable {b : Byte} {s : State}

/-- A result byte that is not the last. -/
theorem resultByte_next (hb : s.port.result[s.port.position]? = some b)
    (hl : s.port.position + 1 < s.port.result.length) :
    resultByte s = { s with port.position := s.port.position + 1, port.driven := some b } := by
  simp only [resultByte]
  rw [if_neg (by omega), List.getD_eq_getElem?_getD, hb]
  rfl

/-- The last result byte. -/
theorem resultByte_last (hb : s.port.result[s.port.position]? = some b)
    (hl : s.port.position + 1 = s.port.result.length) : resultByte s = resultRead b s := by
  simp only [resultByte]
  rw [if_pos hl.ge, List.getD_eq_getElem?_getD, hb]
  rfl

/-- A command refused ends with its result. -/
theorem resultRead_refused (h : s.port.result.head? ≠ some 0x00) :
    resultRead b s = endByRead b s :=
  if_pos (by simpa [resultOk, statusCode] using h)

section Told

variable (ok : s.port.result.head? = some 0x00)

include ok

/-- At the end of a REAP carried out the transmit manager is told. -/
theorem resultRead_reap (hc : s.port.command = some 0x12) :
    resultRead b s = endByRead b (reapRead s) := by
  simp [resultRead, resultOk, statusCode, ok, hc, commandOfCode]

/-- At the end of a FETCH carried out the receive manager is told. -/
theorem resultRead_fetch (hc : s.port.command = some 0x20) :
    resultRead b s = fetchResultRead b s := by
  simp [resultRead, resultOk, statusCode, ok, hc, commandOfCode]

/-- At the end of an OUTCOME carried out the rendezvous unit is told. -/
theorem resultRead_outcome (hc : s.port.command = some 0x33) :
    resultRead b s = endByRead b (outcomeRead s) := by
  simp [resultRead, resultOk, statusCode, ok, hc, commandOfCode]

/-- At the end of any other command no block is told. -/
theorem resultRead_other {code : Byte} {c : HostCommand} (hcode : s.port.command = some code)
    (hc : commandOfCode code = some c) (hr : c ≠ .reap) (hf : c ≠ .fetch) (ho : c ≠ .outcome) :
    resultRead b s = endByRead b s := by
  simp only [resultRead, resultOk, statusCode, ok, hcode, Option.bind_some, hc]
  cases c with
  | reap => exact absurd rfl hr
  | fetch => exact absurd rfl hf
  | outcome => exact absurd rfl ho
  | _ => rfl

end Told

/-! ### What the owner then does (R86, R107, R138) -/

/-- The head of the completion list becomes FREE. -/
theorem reapRead_head {i : Fin 16} {rest : List (Fin 16)} (h : s.tm.completion = i :: rest) :
    reapRead s =
      { s with tm.completion := rest, tm.table := s.tm.table.set i Descriptor.empty } := by
  simp only [reapRead, h, setDescriptor]

/-- The oldest outcome record is removed while it is the one that was copied. -/
theorem outcomeRead_copied (h : s.rdv.reading = true) :
    outcomeRead s = { s with rdv.outcomes := s.rdv.outcomes.drop 1, rdv.reading := false } :=
  if_pos h

/-- After the copied record was dropped no record is removed. -/
theorem outcomeRead_dropped (h : s.rdv.reading = false) : outcomeRead s = s :=
  if_neg (by simp [h])

/-- The bytes of the head record follow in DATA_OUT. -/
theorem fetchResultRead_bytes {r : Record} {rest : List Record} (h : s.rm.records = r :: rest)
    (hk : 1 ≤ r.keptLength) :
    fetchResultRead b s = { s with
      port := { HostPort.idle with
        phase := .dataOut, command := s.port.command, dataOutCount := r.keptLength,
        driven := some b } } := by
  simp only [fetchResultRead, h]
  rw [if_neg (by omega)]

/-- A head record without bytes is removed at once. -/
theorem fetchResultRead_none {r : Record} {rest : List Record} (h : s.rm.records = r :: rest)
    (hk : r.keptLength = 0) : fetchResultRead b s = endByRead b (removeHeadRecord s) := by
  simp only [fetchResultRead, h]
  rw [if_pos hk]

end Result

/-! ### The bytes of a record (R173) -/

section Payload

variable {s : State} {r : Record} {rest : List Record} (h : s.rm.records = r :: rest)

include h

/-- The payload byte read next is the head record's. -/
theorem nextPayloadByte_head :
    nextPayloadByte s =
      readPayloadByte s.mem.cells r.blocks (r.keptLength - s.port.dataOutCount) := by
  simp only [nextPayloadByte, h]

/-- A payload byte that is not the last. -/
theorem payloadRead_next (hn : 2 ≤ s.port.dataOutCount) :
    payloadRead s = { s with
      port.dataOutCount := s.port.dataOutCount - 1
      port.driven :=
        some (readPayloadByte s.mem.cells r.blocks (r.keptLength - s.port.dataOutCount)) } := by
  simp only [payloadRead, nextPayloadByte_head h]
  rw [if_neg (by omega)]

/-- The last payload byte removes the record. -/
theorem payloadRead_last (hn : s.port.dataOutCount = 1) :
    payloadRead s =
      endByRead (readPayloadByte s.mem.cells r.blocks (r.keptLength - 1)) (removeHeadRecord s) := by
  simp only [payloadRead, nextPayloadByte_head h]
  rw [if_pos hn.le, hn]

end Payload

end Sys2Proof.Machine

open Sys2Proof Sys2Proof.Machine

/-- Settles O8: the last byte of a result goes to the owner of the command, by status and code. -/
theorem resultBytesAreReadToTheEnd : Obligations.ResultBytesAreReadToTheEnd := by
  intro s b hrun hp hb ended
  have reads {u : State} (e : resultByte s = u) : NextIs .resultByteRead s u :=
    nextIs_of_change rfl hrun ((dataRead_result hp).trans e)
  refine ⟨fun hl => reads (resultByte_next hb hl), fun hl => ?_⟩
  have last {u : State} (e : resultRead b s = u) : NextIs .resultByteRead s u :=
    reads ((resultByte_last hb hl).trans e)
  refine ⟨fun bad => last (resultRead_refused bad), fun ok =>
    ⟨fun i rest hc h => last ((resultRead_reap ok hc).trans ?reap),
      fun hc h => last ((resultRead_outcome ok hc).trans ?copied),
      fun hc h => last ((resultRead_outcome ok hc).trans ?dropped),
      fun r rest hc h => ⟨fun hk => last ((resultRead_fetch ok hc).trans ?bytes),
        fun hk hw => last ((resultRead_fetch ok hc).trans ?empty)⟩,
      fun code c hcode hc hr hf ho => last (resultRead_other ok hcode hc hr hf ho)⟩⟩
  case reap => rw [reapRead_head h]; rfl
  case copied => rw [outcomeRead_copied h]; rfl
  case dropped => rw [outcomeRead_dropped h]; rfl
  case bytes => rw [fetchResultRead_bytes h hk, hc]
  case empty =>
    rw [fetchResultRead_none h hk, removeHeadRecord_unawaited hw h]
    rfl

/-- Settles O9: the head record's bytes in order, and its removal at the last. -/
theorem payloadBytesAreReadInOrder : Obligations.PayloadBytesAreReadInOrder := by
  intro s r rest hrun hp h
  have reads {u : State} (e : payloadRead s = u) : NextIs .payloadByteRead s u :=
    nextIs_of_change rfl hrun ((dataRead_payload hp).trans e)
  refine ⟨fun hn => reads (payloadRead_next h hn), fun hn hw => ?_⟩
  refine reads ((payloadRead_last h hn).trans ?_)
  rw [removeHeadRecord_unawaited hw h]
  rfl
end


section
/-! The cause unit: the cause byte and its highest cause, the commands CAUSES, SNAPSHOT, ACKNOWLEDGE and SET MASK, and the codes (R178, R183, R188–R193). -/

namespace Sys2Proof.Machine

open Sys2Proof

/-! ### The cause byte (R178) -/

/-- A byte tested for a single bit. -/
theorem and_bit_eq_zero_iff {b bit : Byte} {k : Nat} (hbit : bit = BitVec.twoPow 8 k)
    (hk : k < 8) : b &&& bit = 0 ↔ b.getLsbD k = false := by
  subst hbit
  rw [BitVec.and_twoPow]
  cases b.getLsbD k with
  | false => simp
  | true =>
    refine iff_of_false (fun h => ?_) nofun
    simpa [hk] using congrArg (·.getLsbD k) h

/-- A cause shows in its own bit alone. -/
@[simp] theorem getLsbD_causeBit (held : Bool) (bit : Byte) (k : Nat) :
    (causeBit held bit).getLsbD k = (held && bit.getLsbD k) := by
  cases held <;> simp [causeBit]

/-- The place of each cause in the cause byte, with 0 in bits 7 and 6. -/
theorem getLsbD_pendingSet (c : CauseUnit) :
    (pendingSet c).getLsbD 7 = false ∧ (pendingSet c).getLsbD 6 = false ∧
    (pendingSet c).getLsbD 5 = c.port ∧ (pendingSet c).getLsbD 4 = c.station ∧
    (pendingSet c).getLsbD 3 = c.bus ∧ (pendingSet c).getLsbD 2 = c.rendezvous ∧
    (pendingSet c).getLsbD 1 = c.receive ∧ (pendingSet c).getLsbD 0 = c.complete := by
  simp only [pendingSet, BitVec.getLsbD_or, getLsbD_causeBit]
  simp

/-! ### The highest cause (R189, R190) -/

/-- From bit k upwards a byte holds no 1. -/
def ClearFrom (k : Nat) (b : Byte) : Prop := ∀ j, k ≤ j → b.getLsbD j = false

/-- A byte clear above a clear bit is clear from that bit. -/
theorem ClearFrom.extend {k : Nat} {b : Byte} (above : ClearFrom (k + 1) b)
    (clear : b.getLsbD k = false) : ClearFrom k b := by
  intro j hj
  obtain rfl | hlt := hj.eq_or_lt
  · exact clear
  · exact above j hlt

/-- A byte clear from bit 0 is zero. -/
theorem ClearFrom.eq_zero {b : Byte} (h : ClearFrom 0 b) : b = 0 :=
  BitVec.eq_of_getLsbD_eq fun j _ => (h j j.zero_le).trans BitVec.getLsbD_zero.symm

/-- Only the six places of the causes hold a pending and enabled cause. -/
theorem enabled_clearFrom (c : CauseUnit) : ClearFrom 6 (pendingSet c &&& c.mask) := by
  obtain ⟨bit7, bit6, -⟩ := getLsbD_pendingSet c
  intro j hj
  rw [BitVec.getLsbD_and, Bool.and_eq_false_iff]
  left
  obtain rfl | rfl | beyond : j = 6 ∨ j = 7 ∨ 8 ≤ j := by omega
  · exact bit6
  · exact bit7
  · exact BitVec.getLsbD_of_ge _ _ beyond

/-- A byte that is the highest 1 of another one, alone, or zero where that one is zero. -/
def IsTopBit (b top : Byte) : Prop :=
  (top = 0 ∧ b = 0) ∨
    ∃ k, k < 8 ∧ top = BitVec.twoPow 8 k ∧ b.getLsbD k = true ∧ ClearFrom (k + 1) b

/-- One place of the search for the highest 1: it is here, or it lies below. -/
theorem isTopBit_ite {b bit below : Byte} {k : Nat} (hbit : bit = BitVec.twoPow 8 k)
    (hk : k < 8) (above : ClearFrom (k + 1) b) (rest : ClearFrom k b → IsTopBit b below) :
    IsTopBit b (if b &&& bit ≠ 0 then bit else below) := by
  have test : b &&& bit = 0 ↔ b.getLsbD k = false := and_bit_eq_zero_iff hbit hk
  split
  · rename_i held
    rw [Ne, test, Bool.not_eq_false] at held
    exact .inr ⟨k, hk, hbit, held, above⟩
  · rename_i clear
    exact rest (above.extend (test.1 (not_not.1 clear)))

/-- The search ends at bit 0. -/
theorem isTopBit_last {b : Byte} (above : ClearFrom 1 b) : IsTopBit b (b &&& 0x01) := by
  have bit : (0x01 : Byte) = BitVec.twoPow 8 0 := rfl
  rw [bit, BitVec.and_twoPow]
  split
  · exact .inr ⟨0, by omega, rfl, ‹_›, above⟩
  · rename_i clear
    exact .inl ⟨rfl, (above.extend (Bool.not_eq_true _ ▸ clear)).eq_zero⟩

/-- The highest cause is the highest 1 among the pending and enabled causes. -/
theorem highestCause_isTopBit (c : CauseUnit) :
    IsTopBit (pendingSet c &&& c.mask) (highestCause c) :=
  isTopBit_ite (k := 5) rfl (by omega) (enabled_clearFrom c) fun h5 =>
  isTopBit_ite (k := 4) rfl (by omega) h5 fun h4 =>
  isTopBit_ite (k := 3) rfl (by omega) h4 fun h3 =>
  isTopBit_ite (k := 2) rfl (by omega) h3 fun h2 =>
  isTopBit_ite (k := 1) rfl (by omega) h2 isTopBit_last

/-- The highest 1 is zero only for zero. -/
theorem IsTopBit.eq_zero_iff {b top : Byte} (h : IsTopBit b top) : top = 0 ↔ b = 0 := by
  obtain ⟨rfl, rfl⟩ | ⟨k, hk, rfl, held, -⟩ := h
  · rfl
  · refine iff_of_false (fun e => ?_) (fun e => ?_)
    · simpa [hk] using congrArg (·.getLsbD k) e
    · simp [e] at held

/-- The highest 1 stands in one place, held there, with nothing above it. -/
theorem IsTopBit.of_getLsbD {b top : Byte} {k : Nat} (h : IsTopBit b top)
    (hk : top.getLsbD k = true) : b.getLsbD k = true ∧ ClearFrom (k + 1) b := by
  obtain ⟨rfl, -⟩ | ⟨i, -, rfl, held, above⟩ := h
  · simp at hk
  · obtain ⟨-, rfl⟩ : i < 8 ∧ i = k := by simpa using hk
    exact ⟨held, above⟩

/-- INT is released exactly while no cause is pending and enabled (R189). -/
theorem intAsserted_eq_false_iff (c : CauseUnit) :
    intAsserted c = false ↔ pendingSet c &&& c.mask = 0 := by
  simp [intAsserted]

/-! ### CAUSES, SNAPSHOT, ACKNOWLEDGE and SET MASK (R188, R190, R192, R193) -/

/-- What ACKNOWLEDGE clears, by the bits of its byte. -/
theorem acknowledgeCauses_eq (b : Byte) (c : CauseUnit) :
    acknowledgeCauses b c = { c with
      port := c.port && !b.getLsbD 5
      station := c.station && !b.getLsbD 4
      bus := c.bus && !b.getLsbD 3
      reason := if b.getLsbD 4 then none else c.reason } := by
  have named {bit : Byte} {k : Nat} (hbit : bit = BitVec.twoPow 8 k) (hk : k < 8) :
      (b &&& bit == 0) = !b.getLsbD k := by
    rw [Bool.eq_iff_iff, beq_iff_eq, and_bit_eq_zero_iff hbit hk, Bool.not_eq_true']
  have clear : b &&& 0x10 = 0 ↔ b.getLsbD 4 = false := and_bit_eq_zero_iff rfl (by omega)
  have reason : (if b &&& 0x10 = 0 then c.reason else none) =
      if b.getLsbD 4 then none else c.reason := by
    simp only [clear]
    cases b.getLsbD 4 <;> rfl
  rw [acknowledgeCauses, named (bit := 0x20) (k := 5) rfl (by omega),
    named (bit := 0x10) (k := 4) rfl (by omega), named (bit := 0x08) (k := 3) rfl (by omega),
    reason]

/-- CAUSES copies the pending causes, the highest one, and the reason. -/
theorem cmdCauses_eq (s : State) :
    cmdCauses s =
      (s, .result [0x00, pendingSet s.cause, highestCause s.cause, reasonCode s.cause.reason]) :=
  rfl

/-- SET MASK replaces the six enables. -/
theorem cmdSetMask_eq (b : Byte) (s : State) :
    cmdSetMask b s = ({ s with cause.mask := b &&& 0x3F }, statusReply .ok) :=
  rfl

/-- ACKNOWLEDGE, answered by the cause unit. -/
theorem cmdAcknowledge_eq (b : Byte) (s : State) :
    cmdAcknowledge b s =
      ({ s with
        cause.port := s.cause.port && !b.getLsbD 5
        cause.station := s.cause.station && !b.getLsbD 4
        cause.bus := s.cause.bus && !b.getLsbD 3
        cause.reason := if b.getLsbD 4 then none else s.cause.reason }, statusReply .ok) := by
  rw [cmdAcknowledge, acknowledgeCauses_eq]

/-- SNAPSHOT copies first and then clears the counters if its flag says so. -/
theorem cmdSnapshot_eq (flags : Byte) (s : State) :
    cmdSnapshot flags s =
      ({ s with
        cause.counters := if flags.getLsbD 0 then Counters.zero else s.cause.counters },
        .result (snapshotBytes s)) := by
  simp only [cmdSnapshot]
  cases flags.getLsbD 0 <;> rfl

end Sys2Proof.Machine

open Sys2Proof Sys2Proof.Machine

/-- Settles O23: each of the four commands answers from the cause unit as the port hands it over; the places and the codes are read off. -/
theorem causeUnitCommands : Obligations.CauseUnitCommands := by
  refine ⟨fun flags s hp => ⟨?causes, ?snapshot⟩, fun b s hp => ⟨?acknowledge, ?setMask⟩,
    getLsbD_pendingSet, ?codes⟩
  case causes => exact nextIs_of_command rfl hp (cmdCauses_eq s) (by simp) rfl
  case snapshot =>
    refine nextIs_of_command rfl hp (cmdSnapshot_eq flags s) (by simp) ?_
    simp [snapshotBytes, counterBytes, statusCode, byteOf]
  case acknowledge =>
    exact nextIs_of_command rfl hp (cmdAcknowledge_eq b s) (by simp [statusReply]) rfl
  case setMask => exact nextIs_of_command rfl hp (cmdSetMask_eq b s) (by simp [statusReply]) rfl
  case codes => decide

/-- Settles O24: the search from PORT down to COMPLETE finds the highest 1 of the pending and enabled causes. -/
theorem highestCauseIsTheTopEnabledOne : Obligations.HighestCauseIsTheTopEnabledOne := by
  intro c
  have top := highestCause_isTopBit c
  refine ⟨top.eq_zero_iff.trans (intAsserted_eq_false_iff c).symm, fun k hk => ?_⟩
  obtain ⟨held, above⟩ := top.of_getLsbD hk
  rw [BitVec.getLsbD_and, Bool.and_eq_true] at held
  obtain ⟨pending, enabled⟩ := held
  exact ⟨pending, enabled, fun j hj => BitVec.getLsbD_and ▸ above j hj⟩
end


section
/-! The level causes and INT, settled by every action (R142, R187, R189). -/

namespace Sys2Proof.Machine

open Sys2Proof

/-- An action ends with the levels settled; a part held in reset or without supply keeps them. -/
theorem act_settled {change : State → State} {s t : State} (h : LevelsSettled s)
    (e : act change s = .next t) : LevelsSettled t := by
  by_cases hrun : Running s
  · rw [act_running hrun] at e
    obtain rfl := Host.Outcome.next.inj e
    exact settleCauses_settled _
  · rw [act_stopped hrun] at e
    obtain rfl := Host.Outcome.next.inj e
    exact h

/-- After power-on no level condition holds, no cause is pending, and INT is released (R184). -/
theorem powerOn_settled (straps : StationNumber) (p : PowerState) (n : Nat) (q : List Instr) :
    LevelsSettled (State.powerOn straps p n q) :=
  ⟨rfl, rfl, rfl, (by decide : CauseUnit.powerOn.int = intAsserted CauseUnit.powerOn)⟩

/-- A period of the clock touches neither the owners' conditions nor the cause unit. -/
theorem tick_settled {s : State} (h : LevelsSettled s) : LevelsSettled (tick s) := by
  by_cases hrun : Running s
  · rw [tick_running hrun]
    exact h
  · rw [tick_stopped hrun]
    exact h

/-- Every command leaves the levels settled: each row but reset and supply is an action. -/
theorem exec_settled {c : Instr} {s t : State} (h : LevelsSettled s) (e : exec c s = .next t) :
    LevelsSettled t := by
  cases c with
  | resetAssert =>
    simp only [exec, execResetAssert] at e
    split at e <;> obtain rfl := Host.Outcome.next.inj e
    · exact h
    · exact powerOn_settled _ _ _ _
  | resetRelease straps =>
    simp only [exec, execResetRelease] at e
    split at e <;> obtain rfl := Host.Outcome.next.inj e
    · exact h
    · exact powerOn_settled _ _ _ _
  | lossOfPower =>
    obtain rfl := Host.Outcome.next.inj e
    exact powerOn_settled _ _ _ _
  | ownAssertionSensed | ownReleaseSensed | busIdleSensed | reqSensed | breakEdge | brkRelease
  | participationBegin | trgReleaseSensed | protocolError =>
    simp only [exec, execOwnAssertionSensed, execOwnReleaseSensed, execBusIdleSensed,
      execReqSensed, execBreakEdge, execBrkRelease, execParticipationBegin, execTrgReleaseSensed,
      execProtocolError] at e
    exact act_settled h e
  | _ => exact act_settled h e

end Sys2Proof.Machine

open Sys2Proof Sys2Proof.Machine

/-- Settles O56: every action ends with the levels settled, power-on settles them, and a period of the clock leaves them alone. -/
theorem stepKeepsLevelsAndInt : Obligations.StepKeepsLevelsAndInt := by
  intro s t h e
  simp only [step] at e
  split at e
  · exact exec_settled (by exact h) e
  · obtain rfl := Host.Outcome.next.inj e
    exact tick_settled h
end
